-- ==== Sys2Proof/Word.lean ====
section
/-! DEFINITION. The word types: a byte, a nibble and the 16-bit sample word (00_scope.md R8, 30_encoding.md R70). -/

namespace Sys2Proof

/-- An 8-bit unsigned value (00_scope.md R8). -/
abbrev Byte := BitVec 8

/-- The 4-bit value that the four lanes carry on one quad edge (30_encoding.md R72). -/
abbrev Nibble := BitVec 4

/-- A sample word, `WORD_BITS` = 16 bits, bit 0 the least significant (00_scope.md R6, R8). -/
abbrev Word := BitVec 16

end Sys2Proof
end

