-- ==== Sys2Proof/Config.lean ====
section
/-! DEFINITION. What is fixed for a whole run (00_scope.md R6): the parameters, the command table's shape
(30_encoding.md R75), and the opcode bytes that name the rows of the opcode table.
The numbers the operations use stand in Machine/Operands.lean, the reference table in Decode.lean. -/

namespace Sys2Proof

/-- The mnemonics that the spec leaves OPEN (30_encoding.md R77). They are tokens, not strings: no rule compares
them (log 7). -/
inductive OpenName where
  | name13 | name6B | nameEn4b | nameEx4b
deriving DecidableEq, Repr

/-- A mnemonic of the command table: one that is given as text, or one that the spec leaves open. -/
inductive Name where
  | given (text : String)
  | openParam (p : OpenName)
deriving DecidableEq, Repr

/-- An entry of the data-opcode table: the mnemonic and the header-length adjustment (30_encoding.md R75). -/
structure DataEntry where
  name : Name
  adj  : Nat
deriving DecidableEq, Repr

/-- The command table `CMDTAB` (30_encoding.md R75). Each part, a partial map from bytes in the spec, is a list of
its entries in rising order of opcode, so that equal tables are equal data (log 8). -/
structure CmdTab where
  data : List (Byte × DataEntry)
  ctrl : List (Byte × Name)
  cont : List (Byte × Nat)
  en4b : Byte
  ex4b : Byte
deriving DecidableEq, Repr

/-- The output level `LEVEL` (30_encoding.md R82). -/
inductive Level where
  | everything | onlyData | onlyErrors | onlyControl
deriving DecidableEq, Repr

/-- The configuration (00_scope.md R6), one field per parameter that is not a constant of the hardware. -/
structure Config where
  gapInit       : Nat
  initAddrWidth : Nat
  addrMin       : Nat
  addrMax       : Option Nat
  level         : Level
  errPassesDc   : Bool
  cmdtab        : CmdTab
  /-- `CS_BIT`: 0 at this bit of the sample word asserts chip select (log 9) -/
  csBit         : Nat
  /-- `HO_BIT`, the host-out lane IO0 (log 9) -/
  hoBit         : Nat
  /-- `DI_BIT`, the device-in lane IO1 (log 9) -/
  diBit         : Nat
  lane2Bit      : Nat
  lane3Bit      : Nat
  tsBits        : Option Nat
  edgeBits      : Option Nat
deriving DecidableEq, Repr

/-- READ (43_classifier.md R184). -/
abbrev opRead : Byte := 0x03
/-- FAST_READ (R185). -/
abbrev opFastRead : Byte := 0x0B
/-- READ_4B (R186). -/
abbrev opRead4b : Byte := 0x13
/-- QUAD_READ_6B (R187). -/
abbrev opQuadRead6b : Byte := 0x6B
/-- QUAD_READ (R188). -/
abbrev opQuadRead : Byte := 0xEB

end Sys2Proof
end

