-- ==== Sys2Proof/Syntax.lean ====
section
/-! DEFINITION. The instructions: one constructor per row of spec/opcode_table.json. -/

namespace Sys2Proof

/-- A row of the opcode table with its operands. The four whole steps take the sample's word and its timestamp
(40_boundary.md R110 to R113). The parts of an active step take the sample's word. A command row takes no operand
but for the catch-all row, which takes the opcode byte (43_classifier.md R191). -/
inductive Instr where
  /-- STEP.IDLE (40_boundary.md R110) -/
  | stepIdle (w : Word) (t : Nat)
  /-- STEP.ACTIVE (R111) -/
  | stepActive (w : Word) (t : Nat)
  /-- STEP.START_FRESH (R112) -/
  | stepStartFresh (w : Word) (t : Nat)
  /-- STEP.START_CONT (R113) -/
  | stepStartCont (w : Word) (t : Nat)
  /-- SL.SHIFT (41_lane_assembler.md R132) -/
  | slShift (w : Word)
  /-- SL.FLUSH (R133) -/
  | slFlush (w : Word)
  /-- SL.OPCODE (R134) -/
  | slOpcode (w : Word)
  /-- SL.CONT_DETECT (R135) -/
  | slContDetect (w : Word)
  /-- Q.SHIFT (R136) -/
  | qShift (w : Word)
  /-- Q.FLUSH (R137) -/
  | qFlush (w : Word)
  /-- Q.DIRECTION (R138) -/
  | qDirection (w : Word)
  /-- Q.MODE (R139) -/
  | qMode (w : Word)
  /-- EDGE.INC (R140) -/
  | edgeInc (w : Word)
  /-- TRACK (42_continuous.md R160) -/
  | track (w : Word)
  /-- READ, 0x03 (43_classifier.md R184) -/
  | read
  /-- FAST_READ, 0x0B (R185) -/
  | fastRead
  /-- READ_4B, 0x13 (R186) -/
  | read4b
  /-- QUAD_READ_6B, 0x6B (R187) -/
  | quadRead6b
  /-- QUAD_READ, 0xEB (R188) -/
  | quadRead
  /-- EN4B, `OP_EN4B` (R189) -/
  | en4b
  /-- EX4B, `OP_EX4B` (R190) -/
  | ex4b
  /-- UNKNOWN, the catch-all row (R191) -/
  | unknown (op : Byte)
deriving DecidableEq, Repr

end Sys2Proof
end

