-- ==== Sys2Proof/WellFormed.lean ====
section
/-! DEFINITION. When a term of Instr stands for a row of the opcode table under a configuration: a sample operation
has the chip-select bit of its row (30_encoding.md R71), and a command row's opcode is not taken by another row
(30_encoding.md R76, R78, R79). -/

namespace Sys2Proof

/-- The opcode byte belongs to neither of the two width-switch rows, whose opcodes are parameters of the table
(30_encoding.md R75). -/
def CmdTab.notSwitch (tab : CmdTab) (op : Byte) : Bool :=
  op != tab.en4b && op != tab.ex4b

/-- The opcode bytes of the five data rows (30_encoding.md R77). -/
def dataRowOpcodes : List Byte :=
  [opRead, opFastRead, opRead4b, opQuadRead6b, opQuadRead]

/-- Well-formedness of an instruction under a configuration. -/
def Instr.wf (c : Config) : Instr → Bool
  | .stepIdle w _ => w.getLsbD c.csBit
  | .stepActive w _ => !w.getLsbD c.csBit
  | .stepStartFresh w _ => !w.getLsbD c.csBit
  | .stepStartCont w _ => !w.getLsbD c.csBit
  | .slShift w => !w.getLsbD c.csBit
  | .slFlush w => !w.getLsbD c.csBit
  | .slOpcode w => !w.getLsbD c.csBit
  | .slContDetect w => !w.getLsbD c.csBit
  | .qShift w => !w.getLsbD c.csBit
  | .qFlush w => !w.getLsbD c.csBit
  | .qDirection w => !w.getLsbD c.csBit
  | .qMode w => !w.getLsbD c.csBit
  | .edgeInc w => !w.getLsbD c.csBit
  | .track w => !w.getLsbD c.csBit
  | .read => c.cmdtab.notSwitch opRead
  | .fastRead => c.cmdtab.notSwitch opFastRead
  | .read4b => c.cmdtab.notSwitch opRead4b
  | .quadRead6b => c.cmdtab.notSwitch opQuadRead6b
  | .quadRead => c.cmdtab.notSwitch opQuadRead
  | .en4b => true
  | .ex4b => c.cmdtab.en4b != c.cmdtab.ex4b
  | .unknown op => c.cmdtab.notSwitch op && !dataRowOpcodes.contains op

end Sys2Proof
end

