-- ==== Sys2Proof/Decode.lean ====
section
/-! DEFINITION. The encodings (30_encoding.md): the reference command table and the default configuration, the
decoder, total on every word and byte, the rows that one sample word matches, and after them the encoder. -/

namespace Sys2Proof

/-- `REF_CMDTAB` (30_encoding.md R77). `OP_EX4B` is OPEN; 0xE9 is the spec's reference value, which it marks as general
knowledge. PRESUMED, unsafe (log 6). -/
def refCmdTab : CmdTab where
  data := [(opRead, ⟨.given "Read", 0⟩), (opFastRead, ⟨.given "Fast Read", 1⟩), (opRead4b, ⟨.openParam .name13, 0⟩),
    (opQuadRead6b, ⟨.openParam .name6B, 2⟩), (opQuadRead, ⟨.given "Quad Read", 2⟩)]
  ctrl := [(0xB7, .openParam .nameEn4b), (0xE9, .openParam .nameEx4b)]
  cont := [(opQuadRead6b, 4), (opQuadRead, 4)]
  en4b := 0xB7
  ex4b := 0xE9

/-- The default configuration (00_scope.md R6), with the reference table. `GAP_INIT` is OPEN and has no default:
1000 is the value of the spec's test vectors (95_test_vectors.md section 0). DESIGN CHOICE, unsafe (log 5). -/
def defaultConfig : Config where
  gapInit := 1000
  initAddrWidth := 3
  addrMin := 0
  addrMax := none
  level := .everything
  errPassesDc := true
  cmdtab := refCmdTab
  csBit := 15
  hoBit := 0
  diBit := 1
  lane2Bit := 2
  lane3Bit := 3
  tsBits := none
  edgeBits := none

/-- What the decoder reads: one input sample (30_encoding.md R70), or the command byte `h2d[0]` of a burst (R75). -/
inductive Code where
  | sample (w : Word) (t : Nat)
  | command (op : Byte)
deriving DecidableEq, Repr

/-- Why the decoder of raw table words answers nothing. No sample word and no opcode byte is illegal
(30_encoding.md R79), so only the length can be wrong. -/
inductive Reject where
  /-- The opcode table has the formats sample16 and cmd8 and no other (log 24). -/
  | noSuchFormat (nbits : Nat)
  /-- The value does not fit the number of bits given (log 24). -/
  | wordTooWide (nbits w : Nat)
deriving DecidableEq, Repr

/-- A sample word is decoded by its chip-select bit alone (30_encoding.md R71). Of the thirteen rows that the class
ACTIVE stands for, the word alone names STEP.ACTIVE, the first in the table's order; `sampleRows` gives all, and the
state chooses (`Machine.selectStep`). DEDUCED, safe (log 10). -/
def decodeSample (c : Config) (w : Word) (t : Nat) : Instr :=
  if w.getLsbD c.csBit then .stepIdle w t else .stepActive w t

/-- A command byte is decoded by the rows of format cmd8. The two width-switch rows take their opcode from the table
(93_implementation_defined.md G10), and the catch-all row has the lowest priority (43_classifier.md R191). -/
def decodeCommand (tab : CmdTab) (op : Byte) : Instr :=
  if op = tab.en4b then .en4b
  else if op = tab.ex4b then .ex4b
  else if op = opRead then .read
  else if op = opFastRead then .fastRead
  else if op = opRead4b then .read4b
  else if op = opQuadRead6b then .quadRead6b
  else if op = opQuadRead then .quadRead
  else .unknown op

/-- The decoder: total, because no encoding is illegal (30_encoding.md R79). -/
def decode (c : Config) : Code → Instr
  | .sample w t => decodeSample c w t
  | .command op => decodeCommand c.cmdtab op

/-- Every row of the opcode table that the sample matches, in the table's order (30_encoding.md R71). -/
def sampleRows (c : Config) (w : Word) (t : Nat) : List Instr :=
  if w.getLsbD c.csBit then [.stepIdle w t]
  else [.stepActive w t, .stepStartFresh w t, .stepStartCont w t, .slShift w, .slFlush w, .slOpcode w,
    .slContDetect w, .qShift w, .qFlush w, .qDirection w, .qMode w, .edgeInc w, .track w]

/-- Every row that a code matches; a command byte has one. -/
def matchingRows (c : Config) : Code → List Instr
  | .sample w t => sampleRows c w t
  | .command op => [decodeCommand c.cmdtab op]

/-- The decoder on a table word of `nbits` bits. The timestamp, the operand that the table gives no bits, is 0. -/
def decodeWord (c : Config) (nbits w : Nat) : Except Reject Instr :=
  if 2 ^ nbits ≤ w then .error (.wordTooWide nbits w)
  else if nbits = 16 then .ok (decode c (.sample (BitVec.ofNat 16 w) 0))
  else if nbits = 8 then .ok (decode c (.command (BitVec.ofNat 8 w)))
  else .error (.noSuchFormat nbits)

/-- The decoder as the host asks it, under the default configuration. -/
def decodeTableWord (nbits w : Nat) : Option Instr :=
  (decodeWord defaultConfig nbits w).toOption

/-! ### The encoder -/

/-- The code of an instruction under a configuration. A part of a step has no timestamp of its own; it is 0 there. -/
def encode (c : Config) : Instr → Code
  | .stepIdle w t => .sample w t
  | .stepActive w t => .sample w t
  | .stepStartFresh w t => .sample w t
  | .stepStartCont w t => .sample w t
  | .slShift w => .sample w 0
  | .slFlush w => .sample w 0
  | .slOpcode w => .sample w 0
  | .slContDetect w => .sample w 0
  | .qShift w => .sample w 0
  | .qFlush w => .sample w 0
  | .qDirection w => .sample w 0
  | .qMode w => .sample w 0
  | .edgeInc w => .sample w 0
  | .track w => .sample w 0
  | .read => .command opRead
  | .fastRead => .command opFastRead
  | .read4b => .command opRead4b
  | .quadRead6b => .command opQuadRead6b
  | .quadRead => .command opQuadRead
  | .en4b => .command c.cmdtab.en4b
  | .ex4b => .command c.cmdtab.ex4b
  | .unknown op => .command op

/-- The bits of a code, numbered as the opcode table numbers them: how many, and their value. -/
def Code.bits : Code → Nat × Nat
  | .sample w _ => (16, w.toNat)
  | .command op => (8, op.toNat)

/-- A row of spec/opcode_table.json: its mnemonic, its length in bits, its mask and its match value. -/
structure Row where
  mnemonic : String
  nbits    : Nat
  mask     : Nat
  pattern  : Nat
deriving DecidableEq, Repr

/-- The opcode table's row of an instruction. The class mask is 0x8000 for `CS_BIT` = 15. The match values of EN4B and EX4B are the table's two opcodes, 0xB7 and
0xE9 in the reference table (93_implementation_defined.md G10). -/
def rowOf (c : Config) : Instr → Row
  | .stepIdle _ _ => ⟨"STEP.IDLE", 16, 2 ^ c.csBit, 2 ^ c.csBit⟩
  | .stepActive _ _ => ⟨"STEP.ACTIVE", 16, 2 ^ c.csBit, 0⟩
  | .stepStartFresh _ _ => ⟨"STEP.START_FRESH", 16, 2 ^ c.csBit, 0⟩
  | .stepStartCont _ _ => ⟨"STEP.START_CONT", 16, 2 ^ c.csBit, 0⟩
  | .slShift _ => ⟨"SL.SHIFT", 16, 2 ^ c.csBit, 0⟩
  | .slFlush _ => ⟨"SL.FLUSH", 16, 2 ^ c.csBit, 0⟩
  | .slOpcode _ => ⟨"SL.OPCODE", 16, 2 ^ c.csBit, 0⟩
  | .slContDetect _ => ⟨"SL.CONT_DETECT", 16, 2 ^ c.csBit, 0⟩
  | .qShift _ => ⟨"Q.SHIFT", 16, 2 ^ c.csBit, 0⟩
  | .qFlush _ => ⟨"Q.FLUSH", 16, 2 ^ c.csBit, 0⟩
  | .qDirection _ => ⟨"Q.DIRECTION", 16, 2 ^ c.csBit, 0⟩
  | .qMode _ => ⟨"Q.MODE", 16, 2 ^ c.csBit, 0⟩
  | .edgeInc _ => ⟨"EDGE.INC", 16, 2 ^ c.csBit, 0⟩
  | .track _ => ⟨"TRACK", 16, 2 ^ c.csBit, 0⟩
  | .read => ⟨"READ", 8, 0xFF, 0x03⟩
  | .fastRead => ⟨"FAST_READ", 8, 0xFF, 0x0B⟩
  | .read4b => ⟨"READ_4B", 8, 0xFF, 0x13⟩
  | .quadRead6b => ⟨"QUAD_READ_6B", 8, 0xFF, 0x6B⟩
  | .quadRead => ⟨"QUAD_READ", 8, 0xFF, 0xEB⟩
  | .en4b => ⟨"EN4B", 8, 0xFF, c.cmdtab.en4b.toNat⟩
  | .ex4b => ⟨"EX4B", 8, 0xFF, c.cmdtab.ex4b.toNat⟩
  | .unknown _ => ⟨"UNKNOWN", 8, 0, 0⟩

end Sys2Proof
end

