-- ==== Sys2Proof/Machine/State.lean ====
section
/-! DEFINITION. The state as plain data (10_state.md R20), the transaction record (30_encoding.md R80), why a step can
stop (60_exceptions.md R233), and the state after reset (70_reset_and_hazards.md R250). -/

namespace Sys2Proof.Machine

/-- One input sample (30_encoding.md R70). -/
structure Sample where
  w : Word
  t : Nat
deriving DecidableEq, Repr

/-- The name of a Control record: a table mnemonic, or the opcode of an unknown command (30_encoding.md R80). -/
inductive CtrlName where
  | known (n : Name)
  | raw (op : Byte)
deriving DecidableEq, Repr

/-- A transaction record, the fields in the order of 30_encoding.md R80. -/
inductive Record where
  | data (op : Byte) (name : Name) (addr : Nat) (endAddr count : Int) (aw tsStart tsEnd : Nat)
  | control (op : Byte) (name : CtrlName) (tsStart tsEnd : Nat)
  | error (op : Byte) (aw tsStart tsEnd : Nat)
deriving DecidableEq, Repr

/-- The category of a record (30_encoding.md R81). -/
inductive Category where
  | error | control | data
deriving DecidableEq, Repr

/-- Reasons to stop with a fault: none. The block never faults (60_exceptions.md R230, R233). -/
inductive Fault where
deriving DecidableEq, Repr

/-- Reasons to refuse a step, named as 60_exceptions.md R233 names them. A refusal ends the run (log 21). -/
inductive Refusal where
  /-- An arm of exec that has no meaning yet; none is left. Raised by exec only. Safe. -/
  | notModelled (mnemonic : String)
  /-- `TIMESTAMP_DECREASED` (40_boundary.md R101), raised by the four whole steps. Safe. -/
  | timestampDecreased
  /-- `EDGE_OVERFLOW` (41_lane_assembler.md R140), raised by EDGE.INC and the active steps that run it. Safe. -/
  | edgeOverflow
  /-- `TS_OVERFLOW` (60_exceptions.md R233), raised by the four whole steps. Safe. -/
  | tsOverflow
  /-- `BAD_CONFIG` (00_scope.md R7), raised by every whole step and by a step without a sample. Safe. -/
  | badConfig
  /-- `CONFIG_CHANGED` (20_memory.md R61), raised by every whole step and by a step without a sample. Safe. -/
  | configChanged
  /-- The continuous flag is set and no opcode is stored, so 40_boundary.md R108 has no byte to push. Raised by
  STEP.START_CONT, in states that no run reaches (10_state.md R37 (c)). DESIGN CHOICE, safe (log 12). -/
  | noPreviousOpcode
deriving DecidableEq, Repr

/-- The state. The first seventeen fields are the spec's, in the order of 10_state.md section 1; the last four are the
configuration inputs (log 4) and the ports (log 1, log 3). -/
structure State where
  gapThr      : Nat
  lastTs      : Option Nat
  burstOpen   : Bool
  bStartTs    : Nat
  h2d         : List Byte
  d2h         : List Byte
  edge        : Nat
  qthr        : Option Nat
  dummy       : Nat
  opcode      : Option Byte
  accHo       : Byte
  accDi       : Byte
  accQ        : Byte
  cont        : Bool
  addrw       : Nat
  txnCount    : Nat
  orphanCount : Nat
  /-- the configuration inputs as they stand now (10_state.md R35) -/
  cfg         : Config
  /-- the configuration at reset (60_exceptions.md R233, `CONFIG_CHANGED`) -/
  cfg0        : Config
  /-- the samples delivered and not yet processed, oldest first (70_reset_and_hazards.md R253) -/
  input       : List Sample
  /-- the record that the latest step offers (30_encoding.md R73) -/
  out         : Option Record
deriving DecidableEq, Repr

/-- The state after reset under configuration `c` (70_reset_and_hazards.md R250). -/
def State.resetWith (c : Config) : State where
  gapThr := c.gapInit
  lastTs := none
  burstOpen := false
  bStartTs := 0
  h2d := []
  d2h := []
  edge := 0
  qthr := none
  dummy := 0
  opcode := none
  accHo := 0
  accDi := 0
  accQ := 0
  cont := false
  addrw := c.initAddrWidth
  txnCount := 0
  orphanCount := 0
  cfg := c
  cfg0 := c
  input := []
  out := none

/-- The state after reset under the default configuration (00_scope.md R6; log 5, log 6). -/
def State.reset : State :=
  State.resetWith defaultConfig

end Sys2Proof.Machine
end

