-- ==== Sys2Proof/Machine/Operands.lean ====
section
/-! DEFINITION. Operands: the numbers of this hardware (00_scope.md R6), the fields of a sample word
(30_encoding.md R72), the shifts (00_scope.md R8), the gap (40_boundary.md R102), the command table's lookups
(30_encoding.md R75), and a burst's address, header length and payload count (43_classifier.md R175 to R178). -/

namespace Sys2Proof.Machine

/-- `WORD_BITS`, the width of `Word` -/
def wordBits : Nat := 16
/-- `GAP_FACTOR` -/
def gapFactor : Nat := 4
/-- `QUAD_START` -/
def quadStart : Nat := 8
/-- `CONT_PRESEED` -/
def contPreseed : Nat := 8
/-- `OPCODE_EDGE` -/
def opcodeEdge : Nat := 7
/-- `MODE_EDGE` -/
def modeEdge : Nat := 15
/-- `MODE_SENTINEL` -/
def modeSentinel : Byte := 0xA0
/-- `HDR_BASE` -/
def hdrBase : Nat := 2
/-- `FILLER` -/
def filler : Byte := 0x00

/-! ### The sample word -/

/-- Chip select deasserted, `w[CS_BIT] = 1` (30_encoding.md R71). -/
def csHigh (c : Config) (w : Word) : Bool := w.getLsbD c.csBit

/-- `ho(w)` (30_encoding.md R72). -/
def hostOut (c : Config) (w : Word) : Bool := w.getLsbD c.hoBit

/-- `di(w)` (30_encoding.md R72). -/
def deviceIn (c : Config) (w : Word) : Bool := w.getLsbD c.diBit

/-- `nib(w) = {w[LANE3_BIT], w[LANE2_BIT], w[DI_BIT], w[HO_BIT]}` (30_encoding.md R72, 20_memory.md R54). -/
def nibble (c : Config) (w : Word) : Nibble :=
  BitVec.ofBool (w.getLsbD c.lane3Bit) ++ BitVec.ofBool (w.getLsbD c.lane2Bit)
    ++ BitVec.ofBool (w.getLsbD c.diBit) ++ BitVec.ofBool (w.getLsbD c.hoBit)

/-- `(acc << 1) | b`, truncated to a byte (41_lane_assembler.md R132, 00_scope.md R8). -/
def shiftBit (acc : Byte) (b : Bool) : Byte :=
  (acc <<< 1) ||| (BitVec.ofBool b).setWidth 8

/-- `(acc << 4) | n`, truncated to a byte (41_lane_assembler.md R136). -/
def shiftNib (acc : Byte) (n : Nibble) : Byte :=
  (acc <<< 4) ||| n.setWidth 8

/-! ### Time -/

/-- The gap to the sample before, or the current threshold for the first sample (40_boundary.md R102). A whole step
has already refused a timestamp that decreases, so the subtraction is exact there. -/
def gap (s : State) (t : Nat) : Nat :=
  match s.lastTs with
  | none => s.gapThr
  | some p => t - p

/-- The threshold after a sample at `t`: `min(GAP_FACTOR * gap, gap_thr)` (40_boundary.md R103). -/
def tightened (s : State) (t : Nat) : Nat :=
  min (gapFactor * gap s t) s.gapThr

/-! ### The command table -/

/-- The entry of an opcode in one part of the table. -/
def findOp {α : Type} : List (Byte × α) → Byte → Option α
  | [], _ => none
  | (k, v) :: rest, op => if k = op then some v else findOp rest op

/-- `CMDTAB.data(op)` -/
def dataOf (c : Config) (op : Byte) : Option DataEntry := findOp c.cmdtab.data op

/-- `CMDTAB.ctrl(op)` -/
def ctrlOf (c : Config) (op : Byte) : Option Name := findOp c.cmdtab.ctrl op

/-- `CMDTAB.cont(op)` -/
def contOf (c : Config) (op : Byte) : Option Nat := findOp c.cmdtab.cont op

/-- The keys of one part of the table rise strictly (log 8). -/
def risingKeys {α : Type} : List (Byte × α) → Bool
  | [] => true
  | [_] => true
  | (k, _) :: (k', v') :: rest => decide (k.toNat < k'.toNat) && risingKeys ((k', v') :: rest)

/-- Command-table well-formedness (30_encoding.md R76), and the canonical form of its three lists (log 8). -/
def tableAdmitted (c : Config) : Bool :=
  (ctrlOf c c.cmdtab.en4b).isSome && (ctrlOf c c.cmdtab.ex4b).isSome
    && (dataOf c c.cmdtab.en4b).isNone && (dataOf c c.cmdtab.ex4b).isNone
    && c.cmdtab.en4b != c.cmdtab.ex4b
    && risingKeys c.cmdtab.data && risingKeys c.cmdtab.ctrl && risingKeys c.cmdtab.cont

/-- A bit index of the sample word (00_scope.md R6). -/
def bitIndex (b : Nat) : Bool :=
  decide (b < wordBits)

/-- A lane bit of the two extra lanes lies in 2..14 and is none of `CS_BIT`, `HO_BIT`, `DI_BIT` (00_scope.md R7). -/
def laneAdmitted (c : Config) (b : Nat) : Bool :=
  decide (2 ≤ b) && decide (b ≤ 14) && b != c.csBit && b != c.hoBit && b != c.diBit

/-- The positions of the five fields of a sample word (00_scope.md R6, R7; log 9). -/
def positionsAdmitted (c : Config) : Bool :=
  bitIndex c.csBit && bitIndex c.hoBit && bitIndex c.diBit
    && laneAdmitted c c.lane2Bit && laneAdmitted c c.lane3Bit && c.lane2Bit != c.lane3Bit

/-- Configuration well-formedness (00_scope.md R7). -/
def admitted (c : Config) : Bool :=
  decide (1 ≤ c.initAddrWidth) && decide (c.initAddrWidth ≤ 4) && tableAdmitted c && positionsAdmitted c

/-! ### The operands of a command -/

/-- `be(b0, ..., bk)`, the big-endian value (00_scope.md R10). -/
def bigEndian (bs : List Byte) : Nat :=
  bs.foldl (fun acc b => acc * 256 + b.toNat) 0

/-- `be(h2d[1..aw])` (43_classifier.md R175). -/
def addressOf (aw : Nat) (h2d : List Byte) : Nat :=
  bigEndian ((h2d.drop 1).take aw)

/-- `hdr = aw + HDR_BASE + adj` (43_classifier.md R177). -/
def headerLength (aw : Nat) (e : DataEntry) : Nat :=
  aw + hdrBase + e.adj

/-- `cnt = n - hdr` in Int, with no clamp (43_classifier.md R178). -/
def payloadCount (aw : Nat) (e : DataEntry) (n : Nat) : Int :=
  (n : Int) - (headerLength aw e : Int)

/-! ### The codes of categories and levels -/

/-- The category of a record (30_encoding.md R81). -/
def Record.category : Record → Category
  | .data .. => .data
  | .control .. => .control
  | .error .. => .error

/-- ERROR = 0, CONTROL = 1, DATA = 2 (30_encoding.md R81). -/
def categoryCode : Category → Nat
  | .error => 0
  | .control => 1
  | .data => 2

/-- EVERYTHING = 0, ONLY_DATA = 1, ONLY_ERRORS = 2, ONLY_CONTROL = 3 (30_encoding.md R82). -/
def levelCode : Level → Nat
  | .everything => 0
  | .onlyData => 1
  | .onlyErrors => 2
  | .onlyControl => 3

end Sys2Proof.Machine
end

