-- ==== Sys2Proof/Machine/Flags.lean ====
section
/-! DEFINITION. Conditions: when a burst starts (40_boundary.md R104), which whole step a sample is, the lane phase
(41_lane_assembler.md R131) and the flush positions, the mode-byte test (42_continuous.md R160), and the two filter
predicates (44_filters.md R210, R211). -/

namespace Sys2Proof.Machine

/-! ### Which whole step a sample is -/

/-- The start condition: `gap > gap_thr`, with the threshold already tightened, and chip select asserted
(40_boundary.md R104). -/
def startsBurst (s : State) (w : Word) (t : Nat) : Bool :=
  !csHigh s.cfg w && decide (tightened s t < gap s t)

/-- The condition of STEP.ACTIVE: asserted, and no burst start (40_boundary.md R111). -/
def activeSample (s : State) (w : Word) (t : Nat) : Bool :=
  !csHigh s.cfg w && decide (gap s t ≤ tightened s t)

/-- The condition of STEP.START_FRESH (40_boundary.md R112). -/
def freshSample (s : State) (w : Word) (t : Nat) : Bool :=
  startsBurst s w t && !s.cont

/-- The condition of STEP.START_CONT (40_boundary.md R113). -/
def contSample (s : State) (w : Word) (t : Nat) : Bool :=
  startsBurst s w t && s.cont

/-- The whole step that a sample is, from its word and the state (30_encoding.md R71, 40_boundary.md R104). -/
def selectStep (s : State) (w : Word) (t : Nat) : Instr :=
  if csHigh s.cfg w then .stepIdle w t
  else if startsBurst s w t then
    if s.cont then .stepStartCont w t else .stepStartFresh w t
  else .stepActive w t

/-! ### The lane phase and the flush positions -/

/-- The lane mode is quad (10_state.md R36, 41_lane_assembler.md R131). -/
def quadPhase (s : State) : Bool :=
  match s.qthr with
  | none => false
  | some q => decide (q ≤ s.edge)

/-- A single-lane byte is complete: every 8th edge (41_lane_assembler.md R133). -/
def slFlushAt (s : State) : Bool :=
  !quadPhase s && decide (s.edge % 8 = 7)

/-- The single-lane flush is the one that carries the opcode (41_lane_assembler.md R134). -/
def slOpcodeAt (s : State) : Bool :=
  slFlushAt s && decide (s.edge = opcodeEdge)

/-- A quad byte is complete: every second quad edge (41_lane_assembler.md R137). -/
def qFlushAt (s : State) : Bool :=
  match s.qthr with
  | none => false
  | some q => decide (q ≤ s.edge) && decide ((s.edge - q) % 2 = 1)

/-- A flushed quad byte goes device to host: strictly after the dummy window (41_lane_assembler.md R138). -/
def afterDummy (s : State) : Bool :=
  decide (modeEdge + s.dummy < s.edge)

/-- The stored opcode is a continuation opcode (41_lane_assembler.md R139, 30_encoding.md R75). -/
def opcodeContinues (s : State) : Bool :=
  match s.opcode with
  | none => false
  | some c => (contOf s.cfg c).isSome

/-- The quad byte being flushed is the mode byte (41_lane_assembler.md R139). -/
def modeByteAt (s : State) : Bool :=
  qFlushAt s && decide (s.edge = modeEdge) && opcodeContinues s

/-- `(b & 0xF0) = MODE_SENTINEL` (42_continuous.md R160). -/
def modeSaysContinue (b : Byte) : Bool :=
  b &&& 0xF0 == modeSentinel

/-- The next value of the edge counter does not fit the configured width (41_lane_assembler.md R140,
60_exceptions.md R233; log 22). -/
def edgeOverflows (s : State) : Bool :=
  match s.cfg.edgeBits with
  | none => false
  | some k => decide (s.edge + 1 = 2 ^ k)

/-! ### Filters -/

/-- `addr_pass(addr)`: both bounds inclusive, a minimum of 0 and an absent maximum pass (44_filters.md R210). -/
def addrPass (c : Config) (addr : Nat) : Bool :=
  !(decide (0 < c.addrMin) && decide (addr < c.addrMin))
    && match c.addrMax with
       | none => true
       | some m => decide (addr ≤ m)

/-- The matrix of the output-level filter (44_filters.md R211). -/
def levelPasses (c : Config) : Category → Bool
  | .error =>
    match c.level with
    | .everything => true
    | .onlyErrors => true
    | .onlyData => c.errPassesDc
    | .onlyControl => c.errPassesDc
  | .control =>
    match c.level with
    | .everything => true
    | .onlyControl => true
    | .onlyData => false
    | .onlyErrors => false
  | .data =>
    match c.level with
    | .everything => true
    | .onlyData => true
    | .onlyErrors => false
    | .onlyControl => false

/-- `level(r)` (44_filters.md R211). -/
def levelFilter (c : Config) (r : Record) : Option Record :=
  if levelPasses c r.category then some r else none

end Sys2Proof.Machine
end

