-- ==== Sys2Proof/Machine/Ops.lean ====
section
/-! DEFINITION. The named operations that the meanings are made of: each writes the fields its rule names and no
other. Refusals (60_exceptions.md R233), the start of a burst (40_boundary.md R106 to R108), `push`
(41_lane_assembler.md R141), the classifier (43_classifier.md R170), and the ports. The block has no exception entry
and no return to model (60_exceptions.md R230, R235). -/

namespace Sys2Proof.Machine

/-- Run `f` on the next state; a stop stays a stop. -/
def andThen (o : Host.Outcome State Fault Refusal) (f : State → Host.Outcome State Fault Refusal) :
    Host.Outcome State Fault Refusal :=
  match o with
  | .next s => f s
  | .fault r => .fault r
  | .refused r => .refused r

/-! ### Refusals -/

/-- Why the run as a whole is refused: the configuration it was reset with is not admitted, or the configuration
inputs no longer have their values at reset (60_exceptions.md R233; the order is log 13). -/
def runRefusal (s : State) : Option Refusal :=
  if admitted s.cfg0 then
    if s.cfg = s.cfg0 then none else some .configChanged
  else some .badConfig

/-- The timestamp fits the configured width (60_exceptions.md R233, `TS_OVERFLOW`). -/
def tsFits (c : Config) (t : Nat) : Bool :=
  match c.tsBits with
  | none => true
  | some k => decide (t < 2 ^ k)

/-- The timestamp does not decrease (40_boundary.md R101). -/
def tsInOrder (s : State) (t : Nat) : Bool :=
  match s.lastTs with
  | none => true
  | some p => decide (p ≤ t)

/-- Why a sample at `t` is refused before anything else happens (60_exceptions.md R233, R234 item 1; log 13). -/
def sampleRefusal (s : State) (t : Nat) : Option Refusal :=
  match runRefusal s with
  | some r => some r
  | none =>
    if tsFits s.cfg t then
      if tsInOrder s t then none else some .timestampDecreased
    else some .tsOverflow

/-- Process a sample at `t` unless it is refused. -/
def admitSample (t : Nat) (s : State) (k : State → Host.Outcome State Fault Refusal) :
    Host.Outcome State Fault Refusal :=
  match sampleRefusal s t with
  | some r => .refused r
  | none => k s

/-! ### Threshold and timestamps -/

/-- The threshold update, and no output yet (40_boundary.md R103; R100, `out := none`). -/
def tighten (t : Nat) (s : State) : State :=
  { s with gapThr := tightened s t, out := none }

/-- `last_ts <- some t` (40_boundary.md R109). -/
def stamp (t : Nat) (s : State) : State :=
  { s with lastTs := some t }

/-! ### Burst start -/

/-- The common part of a burst start (40_boundary.md R106). -/
def openBurst (t : Nat) (s : State) : State :=
  { s with h2d := [], d2h := [], burstOpen := true, bStartTs := t, txnCount := s.txnCount + 1, edge := 0 }

/-- The part of a fresh start (40_boundary.md R107). -/
def freshStart (s : State) : State :=
  { s with opcode := none, qthr := none, dummy := 0, accHo := 0, accDi := 0, accQ := 0 }

/-- `edge <- CONT_PRESEED` (40_boundary.md R108). -/
def preseed (s : State) : State :=
  { s with edge := contPreseed }

/-! ### Byte pairs -/

/-- Append a byte pair to the open burst (41_lane_assembler.md R141). -/
def addPair (h d : Byte) (s : State) : State :=
  { s with h2d := s.h2d ++ [h], d2h := s.d2h ++ [d] }

/-- Count a byte pair that belongs to no burst (41_lane_assembler.md R141, 60_exceptions.md R232). -/
def countOrphan (s : State) : State :=
  { s with orphanCount := s.orphanCount + 1 }

/-- `push(h, d)` (41_lane_assembler.md R141). -/
def push (h d : Byte) (s : State) : State :=
  if s.burstOpen then addPair h d s else countOrphan s

/-- The part of a continuous start: pre-seed the edge counter and push the synthetic pair (40_boundary.md R108). With no
stored opcode, which no run reaches (10_state.md R37 (c)), there is no byte to push. DESIGN CHOICE, safe (log 12). -/
def contStart (s : State) : Host.Outcome State Fault Refusal :=
  match s.opcode with
  | some c => .next (push c 0x00 (preseed s))
  | none => .refused .noPreviousOpcode

/-! ### The lane assembler's registers -/

/-- Shift the two single lanes (41_lane_assembler.md R132). -/
def shiftLanes (w : Word) (s : State) : State :=
  { s with accHo := shiftBit s.accHo (hostOut s.cfg w), accDi := shiftBit s.accDi (deviceIn s.cfg w) }

/-- Clear the single-lane accumulators after a flush (41_lane_assembler.md R133). -/
def clearLanes (s : State) : State :=
  { s with accHo := 0, accDi := 0 }

/-- `opcode <- some b` (41_lane_assembler.md R134). -/
def captureOpcode (b : Byte) (s : State) : State :=
  { s with opcode := some b }

/-- `qthr <- some QUAD_START`, `dummy <- D` (41_lane_assembler.md R135). -/
def switchToQuad (d : Nat) (s : State) : State :=
  { s with qthr := some quadStart, dummy := d }

/-- Shift a nibble into the quad accumulator (41_lane_assembler.md R136). -/
def shiftNibble (w : Word) (s : State) : State :=
  { s with accQ := shiftNib s.accQ (nibble s.cfg w) }

/-- Clear the quad accumulator after a flush (41_lane_assembler.md R137). -/
def clearNibble (s : State) : State :=
  { s with accQ := 0 }

/-- Write the continuous-mode flag (42_continuous.md R160). -/
def setCont (b : Bool) (s : State) : State :=
  { s with cont := b }

/-- `edge <- edge + 1` (41_lane_assembler.md R140). -/
def countEdge (s : State) : State :=
  { s with edge := s.edge + 1 }

/-! ### The classifier -/

/-- The data branch (43_classifier.md R174 to R179): truncation first, then the address filter, then the header. -/
def dataResult (c : Config) (aw : Nat) (e : DataEntry) (op : Byte) (h2d : List Byte) (ts0 ts1 : Nat) :
    Option Record :=
  if h2d.length < 1 + aw then levelFilter c (.error op aw ts0 ts1)
  else if addrPass c (addressOf aw h2d) then
    levelFilter c (.data op e.name (addressOf aw h2d)
      ((addressOf aw h2d : Int) + payloadCount aw e h2d.length) (payloadCount aw e h2d.length) aw ts0 ts1)
  else none

/-- The address width after a control opcode (43_classifier.md R180). -/
def widthAfter (c : Config) (aw : Nat) (op : Byte) : Nat :=
  if op = c.cmdtab.ex4b then 3 else if op = c.cmdtab.en4b then 4 else aw

/-- `classify(h2d, d2h, ts0, ts1)` at address width `aw` (43_classifier.md R170): the record, if any, and the address
width after it. -/
def classify (c : Config) (aw : Nat) (h2d d2h : List Byte) (ts0 ts1 : Nat) : Option Record × Nat :=
  match h2d, d2h with
  | [], _ => (none, aw)
  | _ :: _, [] => (none, aw)
  | op :: rest, _ :: _ =>
    match dataOf c op with
    | some e => (dataResult c aw e op (op :: rest) ts0 ts1, aw)
    | none =>
      match ctrlOf c op with
      | some n => (levelFilter c (.control op (.known n) ts0 ts1), widthAfter c aw op)
      | none => (levelFilter c (.control op (.raw op) ts0 ts1), aw)

/-- Offer a record and set the address width. -/
def setResult (r : Option Record) (aw : Nat) (s : State) : State :=
  { s with out := r, addrw := aw }

/-- Classify the open burst, ended by the sample before this one, at `p` (40_boundary.md R105). -/
def classifyBurst (p : Nat) (s : State) : State :=
  setResult (classify s.cfg s.addrw s.h2d s.d2h s.bStartTs p).1
    (classify s.cfg s.addrw s.h2d s.d2h s.bStartTs p).2 s

/-- A command row: the open burst's first byte is `op`, and the burst ends (40_boundary.md R105, 43_classifier.md
R170). Where no burst is open, another byte stands first, or no sample has been seen, the row does not apply and
changes nothing (log 11, log 15). -/
def commandRow (op : Byte) (s : State) : Host.Outcome State Fault Refusal :=
  match s.lastTs with
  | none => .next s
  | some p =>
    if s.burstOpen && decide (s.h2d.head? = some op) then .next (classifyBurst p s) else .next s

/-! ### Ports -/

/-- The host delivers one more sample (70_reset_and_hazards.md R253; log 1). -/
def State.deliver (smp : Sample) (s : State) : State :=
  { s with input := s.input ++ [smp] }

/-- Take the oldest delivered sample off the input (log 1). -/
def dropSample (s : State) : State :=
  { s with input := s.input.drop 1 }

/-- With no sample delivered the block does no work, keeps its state and offers no record (60_exceptions.md R240,
70_reset_and_hazards.md R255; log 2). -/
def waitForSample (s : State) : Host.Outcome State Fault Refusal :=
  match runRefusal s with
  | some r => .refused r
  | none => .next { s with out := none }

/-- `rec_valid` (30_encoding.md R73). -/
def State.recValid (s : State) : Bool := s.out.isSome

/-- The debug view: `txn_count` and `orphan_count` (60_exceptions.md R239). -/
def State.debugView (s : State) : Nat × Nat := (s.txnCount, s.orphanCount)

/-! ### Placing an instruction where the next step fetches it (log 18) -/

/-- Deliver one sample as the only pending one, at the timestamp of the sample before it, or at 0. -/
def placeSample (w : Word) (s : State) : State :=
  { s with input := [⟨w, s.lastTs.getD 0⟩] }

/-- The bytes of a command: its opcode in the low byte of `w`, then the bytes above it, eight in all, which is the
longest header of the reference table at four address bytes. -/
def commandBytes (w : Nat) : List Byte :=
  (List.range 8).map fun i => BitVec.ofNat 8 (w / 256 ^ i)

/-- Make the open burst hold a command's bytes, and deliver the sample that starts the next burst. -/
def placeCommand (w : Nat) (s : State) : State :=
  { s with
    lastTs := some (s.lastTs.getD 0)
    burstOpen := true
    h2d := commandBytes w
    d2h := (commandBytes w).map fun _ => filler
    input := [⟨0, s.lastTs.getD 0 + s.gapThr + 1⟩] }

end Sys2Proof.Machine
end

