-- ==== Sys2Proof/Machine/Tracker.lean ====
section
/-! DEFINITION. The continuous-read-mode tracker (42_continuous.md). -/

namespace Sys2Proof.Machine

/-- TRACK (42_continuous.md R160, R161): the mode byte, complete in the quad accumulator, sets or clears the flag. It
applies at the edge-15 quad flush of a continuation opcode only (log 11, log 16). -/
def execTrack (_w : Word) (s : State) : Host.Outcome State Fault Refusal :=
  if modeByteAt s then .next (setCont (modeSaysContinue s.accQ) s) else .next s

end Sys2Proof.Machine
end

