-- ==== Sys2Proof/Machine/QuadLane.lean ====
section
/-! DEFINITION. The quad-lane rows of the lane assembler (41_lane_assembler.md section 3). Each row applies where its
rule's condition holds and changes nothing elsewhere (log 11). -/

namespace Sys2Proof.Machine

/-- Q.SHIFT (41_lane_assembler.md R136). -/
def execQShift (w : Word) (s : State) : Host.Outcome State Fault Refusal :=
  if quadPhase s then .next (shiftNibble w s) else .next s

/-- Q.DIRECTION (41_lane_assembler.md R138). -/
def execQDirection (_w : Word) (s : State) : Host.Outcome State Fault Refusal :=
  if qFlushAt s then
    if afterDummy s then .next (push filler s.accQ s) else .next (push s.accQ filler s)
  else .next s

/-- Q.MODE (41_lane_assembler.md R139): hand the mode byte to the tracker. -/
def execQMode (w : Word) (s : State) : Host.Outcome State Fault Refusal :=
  if modeByteAt s then execTrack w s else .next s

/-- Q.FLUSH (41_lane_assembler.md R137): the direction rule, then the mode byte, then clear. -/
def execQFlush (w : Word) (s : State) : Host.Outcome State Fault Refusal :=
  if qFlushAt s then
    andThen (execQDirection w s) fun s1 =>
    andThen (execQMode w s1) fun s2 => .next (clearNibble s2)
  else .next s

end Sys2Proof.Machine
end

