-- ==== Sys2Proof/Machine/SingleLane.lean ====
section
/-! DEFINITION. The single-lane rows of the lane assembler (41_lane_assembler.md section 2). Each row applies where its
rule's condition holds and changes nothing elsewhere (log 11). -/

namespace Sys2Proof.Machine

/-- SL.SHIFT (41_lane_assembler.md R132). -/
def execSlShift (w : Word) (s : State) : Host.Outcome State Fault Refusal :=
  if quadPhase s then .next s else .next (shiftLanes w s)

/-- SL.OPCODE (41_lane_assembler.md R134): at edge 7 the byte just pushed, still in the accumulator, is the opcode. -/
def execSlOpcode (_w : Word) (s : State) : Host.Outcome State Fault Refusal :=
  if slOpcodeAt s then .next (captureOpcode s.accHo s) else .next s

/-- SL.CONT_DETECT (41_lane_assembler.md R135): at edge 7, where the captured opcode is a continuation opcode. -/
def execSlContDetect (_w : Word) (s : State) : Host.Outcome State Fault Refusal :=
  if slOpcodeAt s then
    match s.opcode.bind (contOf s.cfg) with
    | some d => .next (switchToQuad d s)
    | none => .next s
  else .next s

/-- SL.FLUSH (41_lane_assembler.md R133): push, then the two rows of edge 7, then clear. -/
def execSlFlush (w : Word) (s : State) : Host.Outcome State Fault Refusal :=
  if slFlushAt s then
    andThen (execSlOpcode w (push s.accHo s.accDi s)) fun s1 =>
    andThen (execSlContDetect w s1) fun s2 => .next (clearLanes s2)
  else .next s

end Sys2Proof.Machine
end

