-- ==== Sys2Proof/Machine/Assembler.lean ====
section
/-! DEFINITION. The edge counter and the assembler's entry (41_lane_assembler.md R130, R140). -/

namespace Sys2Proof.Machine

/-- EDGE.INC (41_lane_assembler.md R140). -/
def execEdgeInc (_w : Word) (s : State) : Host.Outcome State Fault Refusal :=
  if edgeOverflows s then .refused .edgeOverflow else .next (countEdge s)

/-- `assemble(S, w)` (41_lane_assembler.md R130): the rows of the phase that the edge is in, then the edge counter. The
rows of the other phase do not apply: a switch at edge 7 sets the threshold to 8, so edge 7 stays single-lane. -/
def assemble (w : Word) (s : State) : Host.Outcome State Fault Refusal :=
  andThen (execSlShift w s) fun s1 =>
  andThen (execSlFlush w s1) fun s2 =>
  andThen (execQShift w s2) fun s3 =>
  andThen (execQFlush w s3) fun s4 => execEdgeInc w s4

end Sys2Proof.Machine
end

