-- ==== Sys2Proof/Machine/Classifier.lean ====
section
/-! DEFINITION. The command rows (43_classifier.md section 2): the classification of the ended burst, one row per opcode
of the reference table and the catch-all row. Each looks its opcode up in the table (43_classifier.md R170), so under
another table it follows that table (log 14). -/

namespace Sys2Proof.Machine

/-- READ (43_classifier.md R184). -/
def execRead (s : State) : Host.Outcome State Fault Refusal :=
  commandRow opRead s

/-- FAST_READ (43_classifier.md R185). -/
def execFastRead (s : State) : Host.Outcome State Fault Refusal :=
  commandRow opFastRead s

/-- READ_4B (43_classifier.md R186). -/
def execRead4b (s : State) : Host.Outcome State Fault Refusal :=
  commandRow opRead4b s

/-- QUAD_READ_6B (43_classifier.md R187). -/
def execQuadRead6b (s : State) : Host.Outcome State Fault Refusal :=
  commandRow opQuadRead6b s

/-- QUAD_READ (43_classifier.md R188). -/
def execQuadRead (s : State) : Host.Outcome State Fault Refusal :=
  commandRow opQuadRead s

/-- EN4B (43_classifier.md R189). -/
def execEn4b (s : State) : Host.Outcome State Fault Refusal :=
  commandRow s.cfg.cmdtab.en4b s

/-- EX4B (43_classifier.md R190). -/
def execEx4b (s : State) : Host.Outcome State Fault Refusal :=
  commandRow s.cfg.cmdtab.ex4b s

/-- UNKNOWN (43_classifier.md R191), and under a swapped table any opcode that no other row names (log 14). -/
def execUnknown (op : Byte) (s : State) : Host.Outcome State Fault Refusal :=
  commandRow op s

/-- Run the row that a command byte decodes to. `decodeCommand` answers no sample operation. -/
def runCommand (op : Byte) (s : State) : Host.Outcome State Fault Refusal :=
  match decodeCommand s.cfg.cmdtab op with
  | .read => execRead s
  | .fastRead => execFastRead s
  | .read4b => execRead4b s
  | .quadRead6b => execQuadRead6b s
  | .quadRead => execQuadRead s
  | .en4b => execEn4b s
  | .ex4b => execEx4b s
  | .unknown o => execUnknown o s
  | _ => .next s

/-- The implicit end of the open burst (40_boundary.md R105). An empty burst is discarded (43_classifier.md R171). -/
def implicitEnd (s : State) : Host.Outcome State Fault Refusal :=
  if s.burstOpen then
    match s.h2d with
    | [] => .next s
    | op :: _ => runCommand op s
  else .next s

end Sys2Proof.Machine
end

