-- ==== Sys2Proof/Machine/Boundary.lean ====
section
/-! DEFINITION. The four whole steps (40_boundary.md R100, R110 to R113). In the order of 60_exceptions.md R234: the
refusals, the threshold, the start test, the implicit end, the start, the timestamp, the idle stop, the assembler. A
step whose sample is of another class does not apply and changes nothing (log 11); `selectStep` names the one that
applies. -/

namespace Sys2Proof.Machine

/-- STEP.IDLE (40_boundary.md R110). -/
def execStepIdle (w : Word) (t : Nat) (s : State) : Host.Outcome State Fault Refusal :=
  admitSample t s fun s =>
    if csHigh s.cfg w then .next (stamp t (tighten t s)) else .next s

/-- STEP.ACTIVE (40_boundary.md R111). -/
def execStepActive (w : Word) (t : Nat) (s : State) : Host.Outcome State Fault Refusal :=
  admitSample t s fun s =>
    if activeSample s w t then assemble w (stamp t (tighten t s)) else .next s

/-- STEP.START_FRESH (40_boundary.md R112). -/
def execStepStartFresh (w : Word) (t : Nat) (s : State) : Host.Outcome State Fault Refusal :=
  admitSample t s fun s =>
    if freshSample s w t then
      andThen (implicitEnd (tighten t s)) fun s1 =>
      assemble w (stamp t (freshStart (openBurst t s1)))
    else .next s

/-- STEP.START_CONT (40_boundary.md R113). -/
def execStepStartCont (w : Word) (t : Nat) (s : State) : Host.Outcome State Fault Refusal :=
  admitSample t s fun s =>
    if contSample s w t then
      andThen (implicitEnd (tighten t s)) fun s1 =>
      andThen (contStart (openBurst t s1)) fun s2 => assemble w (stamp t s2)
    else .next s

end Sys2Proof.Machine
end

