-- ==== Sys2Proof/Machine/Trace.lean ====
section
/-! DEFINITION. The trace notation (30_encoding.md R83): shorthands for lists of samples, in
which the five fields of a word stand at their default positions (00_scope.md R6). -/

namespace Sys2Proof.Machine

/-- `IDLE(t)` -/
def traceIdle (t : Nat) : List Sample := [⟨0x8000, t⟩]

/-- The word of sample `i` of a single-lane byte: `bit(h, 7-i) | bit(d, 7-i) << 1`. -/
def slWord (h d : Byte) (i : Nat) : Word :=
  (BitVec.ofBool (d.getLsbD (7 - i)) ++ BitVec.ofBool (h.getLsbD (7 - i))).setWidth 16

/-- `SL(t0, P, h, d)` -/
def traceSL (t0 p : Nat) (h d : Byte) : List Sample :=
  (List.range 8).map fun i => ⟨slWord h d i, t0 + i * p⟩

/-- `Q(t0, P, b)` -/
def traceQ (t0 p : Nat) (b : Byte) : List Sample :=
  [⟨(b >>> 4).setWidth 16, t0⟩, ⟨(b &&& 0x0F).setWidth 16, t0 + p⟩]

/-- The host delivers a whole trace, in order (70_reset_and_hazards.md R253). -/
def deliverAll (smps : List Sample) (s : State) : State :=
  smps.foldl (fun s smp => s.deliver smp) s

end Sys2Proof.Machine
end

