-- ==== Sys2Proof/Machine/Dispatch.lean ====
section
/-! DEFINITION. One arm per row of the opcode table. -/

namespace Sys2Proof.Machine

def exec (i : Instr) (s : State) : Host.Outcome State Fault Refusal :=
  match i with
  | .stepIdle w t => Sys2Proof.Machine.execStepIdle w t s
  | .stepActive w t => Sys2Proof.Machine.execStepActive w t s
  | .stepStartFresh w t => Sys2Proof.Machine.execStepStartFresh w t s
  | .stepStartCont w t => Sys2Proof.Machine.execStepStartCont w t s
  | .slShift w => Sys2Proof.Machine.execSlShift w s
  | .slFlush w => Sys2Proof.Machine.execSlFlush w s
  | .slOpcode w => Sys2Proof.Machine.execSlOpcode w s
  | .slContDetect w => Sys2Proof.Machine.execSlContDetect w s
  | .qShift w => Sys2Proof.Machine.execQShift w s
  | .qFlush w => Sys2Proof.Machine.execQFlush w s
  | .qDirection w => Sys2Proof.Machine.execQDirection w s
  | .qMode w => Sys2Proof.Machine.execQMode w s
  | .edgeInc w => Sys2Proof.Machine.execEdgeInc w s
  | .track w => Sys2Proof.Machine.execTrack w s
  | .read => Sys2Proof.Machine.execRead s
  | .fastRead => Sys2Proof.Machine.execFastRead s
  | .read4b => Sys2Proof.Machine.execRead4b s
  | .quadRead6b => Sys2Proof.Machine.execQuadRead6b s
  | .quadRead => Sys2Proof.Machine.execQuadRead s
  | .en4b => Sys2Proof.Machine.execEn4b s
  | .ex4b => Sys2Proof.Machine.execEx4b s
  | .unknown op => Sys2Proof.Machine.execUnknown op s

end Sys2Proof.Machine
end

