-- ==== Sys2Proof/Machine/Step.lean ====
section
/-! DEFINITION. One step processes one delivered sample (00_scope.md R12, 20_memory.md R59), and where an instruction is
placed for the next step. -/

namespace Sys2Proof.Machine

/-- Take the oldest delivered sample, decode it in the state, and run it; with none delivered, wait (log 1, log 2). -/
def step (s : State) : Host.Outcome State Fault Refusal :=
  match s.input with
  | [] => waitForSample s
  | smp :: _ => exec (selectStep s smp.w smp.t) (dropSample s)

/-- Place a table word where the next step fetches it: a sample word as the only pending sample, a command byte as the
open burst that the pending sample ends. Another length changes nothing (log 18). -/
def State.withFetchWord (s : State) (nbits w : Nat) : State :=
  if nbits = 16 then placeSample (BitVec.ofNat 16 w) s
  else if nbits = 8 then placeCommand w s
  else s

end Sys2Proof.Machine
end

