-- ==== Sys2Proof/Machine/Pseudocode.lean ====
section
/-! DEFINITION. The spec's pseudocode written down whole: `step` (40_boundary.md R100) and `assemble`
(41_lane_assembler.md R130), as one function each, without the rows of the opcode table. No other definition uses
this file. Claims compare the machine, which is built from the table's rows, with it. -/

namespace Sys2Proof.Machine

/-- The single-lane half of R130. -/
def pseudoSingle (w : Word) (s : State) : State :=
  let ho := shiftBit s.accHo (w.getLsbD s.cfg.hoBit)
  let di := shiftBit s.accDi (w.getLsbD s.cfg.diBit)
  if s.edge % 8 = 7 then
    let s1 := push ho di s
    let s2 :=
      if s.edge = 7 then
        match contOf s.cfg ho with
        | some d => { s1 with opcode := some ho, qthr := some 8, dummy := d }
        | none => { s1 with opcode := some ho }
      else s1
    { s2 with accHo := 0, accDi := 0 }
  else { s with accHo := ho, accDi := di }

/-- The quad-lane half of R130, with `S.qthr = some q`. -/
def pseudoQuad (q : Nat) (w : Word) (s : State) : State :=
  let b := shiftNib s.accQ (nibble s.cfg w)
  if (s.edge - q) % 2 = 1 then
    let s1 := if 15 + s.dummy < s.edge then push 0 b s else push b 0 s
    let s2 :=
      if s.edge = 15 ∧ (s.opcode.bind (contOf s.cfg)).isSome then { s1 with cont := decide (b &&& 0xF0 = 0xA0) }
      else s1
    { s2 with accQ := 0 }
  else { s with accQ := b }

/-- `assemble(S, w)` (R130), with the refusal of R140. -/
def pseudoAssemble (w : Word) (s : State) : Host.Outcome State Fault Refusal :=
  let s1 :=
    match s.qthr with
    | none => pseudoSingle w s
    | some q => if s.edge < q then pseudoSingle w s else pseudoQuad q w s
  if s.cfg.edgeBits.map (2 ^ ·) = some (s.edge + 1) then .refused .edgeOverflow
  else .next { s1 with edge := s.edge + 1 }

/-- `step(S, (w, t))` (R100), for a sample that rule R101 admits. The record of the step stands in `out`. -/
def pseudoStep (w : Word) (t : Nat) (s : State) : Host.Outcome State Fault Refusal :=
  let g := match s.lastTs with
    | none => s.gapThr
    | some p => t - p
  let thr := min (4 * g) s.gapThr
  let s0 : State := { s with gapThr := thr, out := none }
  if thr < g ∧ w.getLsbD s.cfg.csBit = false then
    let r := if s.burstOpen then classify s.cfg s.addrw s.h2d s.d2h s.bStartTs (s.lastTs.getD 0) else (none, s.addrw)
    let s1 : State := { s0 with
      out := r.1, addrw := r.2, h2d := [], d2h := [], burstOpen := true, bStartTs := t, txnCount := s.txnCount + 1
      edge := 0, lastTs := some t }
    if s.cont then
      match s.opcode with
      | some c => pseudoAssemble w { s1 with edge := 8, h2d := [c], d2h := [0] }
      | none => .refused .noPreviousOpcode
    else
      pseudoAssemble w { s1 with opcode := none, qthr := none, dummy := 0, accHo := 0, accDi := 0, accQ := 0 }
  else if w.getLsbD s.cfg.csBit then .next { s0 with lastTs := some t }
  else pseudoAssemble w { s0 with lastTs := some t }

end Sys2Proof.Machine
end

