-- ==== Sys2Proof/Safety.lean ====
section
/-! DEFINITION. What a run keeps and what counts as a safe run, in the terms that claims use: the invariants of
10_state.md R37 with what their proof needs, the states a run can reach, and the conditions on a sample under which the
spec gives a step its effect. -/

namespace Sys2Proof.Machine

/-- The five invariants of 10_state.md R37. -/
structure SpecInv (s : State) : Prop where
  /-- (a) -/
  sameLength : s.h2d.length = s.d2h.length
  /-- (b) -/
  closedIsEmpty : s.burstOpen = false → s.h2d = []
  /-- (c) -/
  contKeepsOpcode : s.cont = true → ∃ c, s.opcode = some c ∧ s.qthr = some 8 ∧ contOf s.cfg c = some s.dummy
  /-- (d) -/
  thresholdBound : s.gapThr ≤ s.cfg.gapInit
  /-- (e) -/
  quadThreshold : s.qthr = none ∨ s.qthr = some 8

/-- The quad-switch threshold is set only past the opcode and for a stored continuation opcode
(42_continuous.md R165). -/
def QuadHasOpcode (s : State) : Prop :=
  s.qthr ≠ none → 8 ≤ s.edge ∧ ∃ c, s.opcode = some c ∧ contOf s.cfg c = some s.dummy

/-- Length accounting in the open burst (41_lane_assembler.md R143, R146): a byte pair for every eight edges, and in the
quad phase one for the opcode and one for every two edges from edge 8 on. -/
def LengthAccounting (s : State) : Prop :=
  s.burstOpen = true →
    (s.qthr = none → s.h2d.length = s.edge / 8) ∧ (s.qthr ≠ none → s.h2d.length = 1 + (s.edge - 8) / 2)

/-- What every step keeps: the spec's invariants, and what they rest on. -/
structure RunInv (s : State) : Prop extends SpecInv s where
  quadHasOpcode : QuadHasOpcode s
  /-- 10_state.md R32 -/
  widthLegal : 1 ≤ s.addrw ∧ s.addrw ≤ 4
  /-- 40_boundary.md R100: a burst is open only after a sample -/
  openAfterSample : s.burstOpen = true → s.lastTs ≠ none
  /-- 10_state.md R23: false exactly before the first burst start -/
  openIffStarted : s.burstOpen = false ↔ s.txnCount = 0
  lengthAccounting : LengthAccounting s

/-- The configuration is admitted and has not changed, and the timestamp is one that the spec gives a meaning to
(60_exceptions.md R233): exactly where none of the refusals that precede a step's effect applies. -/
structure Accepts (s : State) (t : Nat) : Prop where
  configAdmitted : admitted s.cfg = true
  configUnchanged : s.cfg = s.cfg0
  tsFits : ∀ k, s.cfg.tsBits = some k → t < 2 ^ k
  tsInOrder : ∀ p, s.lastTs = some p → p ≤ t

/-- The edge counter can count the next edge (41_lane_assembler.md R140). -/
def EdgeFits (s : State) : Prop :=
  ∀ k, s.cfg.edgeBits = some k → s.edge + 1 ≠ 2 ^ k

/-- The sample is in the single-lane phase (41_lane_assembler.md R131). -/
def SingleLane (s : State) : Prop :=
  ∀ q, s.qthr = some q → s.edge < q

/-- The sample completes a quad byte (41_lane_assembler.md R137). -/
def QuadFlush (s : State) : Prop :=
  ∃ q, s.qthr = some q ∧ q ≤ s.edge ∧ (s.edge - q) % 2 = 1

/-- The sample completes the mode byte (41_lane_assembler.md R139). -/
def ModeByte (s : State) : Prop :=
  QuadFlush s ∧ s.edge = 15 ∧ ∃ c, s.opcode = some c ∧ contOf s.cfg c ≠ none

/-- The states of a run from reset under configuration `c`: the host delivers samples, the block takes steps
(70_reset_and_hazards.md R250, R253). -/
inductive Reachable (c : Config) : State → Prop where
  | reset : Reachable c (State.resetWith c)
  | deliver {s : State} (smp : Sample) : Reachable c s → Reachable c (s.deliver smp)
  | step {s s' : State} : Reachable c s → step s = .next s' → Reachable c s'

/-- A step is safe when the only refusals it can end in are the five of 60_exceptions.md R233. -/
def SafeStep (s : State) : Prop :=
  ∀ r, step s = .refused r → r = .timestampDecreased ∨ r = .edgeOverflow ∨ r = .tsOverflow ∨ r = .badConfig
    ∨ r = .configChanged

/-- Assemble a list of active sample words, one after another. -/
def assembleAll : List Word → State → Host.Outcome State Fault Refusal
  | [], s => .next s
  | w :: ws, s => andThen (assemble w s) (assembleAll ws)

/-- Eight samples carry the byte `h` on the host-out lane and `d` on the device-in lane, MSB first
(20_memory.md R53, 30_encoding.md R72). -/
def CarriesByte (c : Config) (ws : List Word) (h d : Byte) : Prop :=
  ws.map (fun w => w.getLsbD c.hoBit) = (List.range 8).map (fun i => h.getLsbD (7 - i)) ∧
  ws.map (fun w => w.getLsbD c.diBit) = (List.range 8).map (fun i => d.getLsbD (7 - i))

end Sys2Proof.Machine
end

