-- ==== Sys2Proof/Certificates/Slice0/Obligations.lean ====
section
/-! DEFINITION. The statements for the provers. Each docstring names the rule or the section it formalises; a clause
that rests on a choice of this model names the log entry. -/

open Sys2Proof Sys2Proof.Machine

/-! ### Encoding -/

/-- 30_encoding.md R71: the chip-select bit alone decides the class of a sample word, wherever the configuration puts it
(log 9), and every word has a class; with `CS_BIT` = 15 the bit is the table's mask 0x8000. -/
def Obligations.SampleClassByChipSelect : Prop :=
  ∀ (c : Config) (s : State) (w : Word) (t : Nat),
    (w.getLsbD c.csBit = true →
      decode c (.sample w t) = .stepIdle w t ∧ matchingRows c (.sample w t) = [.stepIdle w t]) ∧
    (w.getLsbD c.csBit = false →
      decode c (.sample w t) = .stepActive w t ∧ .stepIdle w t ∉ matchingRows c (.sample w t)) ∧
    (w.getLsbD s.cfg.csBit = true ↔ selectStep s w t = .stepIdle w t) ∧
    (c.csBit = 15 → (w.getLsbD c.csBit = true ↔ w &&& 0x8000 = 0x8000) ∧ (w.getLsbD c.csBit = false ↔ w &&& 0x8000 = 0))

/-- 30_encoding.md sections 1 and 3: a well-formed instruction is among the rows that its code matches; the rows that
their code alone decides (STEP.IDLE, the command rows, and STEP.ACTIVE as the class of every active word, log 10) are
the decoding of their code, at every value of every operand; and encoding gives back every code that was decoded. -/
def Obligations.DecodeAndEncodeAgree : Prop :=
  (∀ (c : Config) (i : Instr), i.wf c = true → i ∈ matchingRows c (encode c i)) ∧
  (∀ (c : Config) (w : Word) (t : Nat),
    ((Instr.stepIdle w t).wf c = true → decode c (encode c (.stepIdle w t)) = .stepIdle w t) ∧
    ((Instr.stepActive w t).wf c = true → decode c (encode c (.stepActive w t)) = .stepActive w t)) ∧
  (∀ (c : Config) (op : Byte) (i : Instr),
    i ∈ [.read, .fastRead, .read4b, .quadRead6b, .quadRead, .en4b, .ex4b, .unknown op] → i.wf c = true →
      decode c (encode c i) = i) ∧
  (∀ (c : Config) (x : Code), encode c (decode c x) = x)

/-- 30_encoding.md sections 1 and 3: words and bytes written out from the tables of R71 and R77. -/
def Obligations.TableWordsDecodeToTheirRows : Prop :=
  decodeTableWord 16 0x8000 = some (.stepIdle 0x8000 0) ∧ decodeTableWord 16 0x800F = some (.stepIdle 0x800F 0) ∧
  decodeTableWord 16 0x0003 = some (.stepActive 0x0003 0) ∧ decodeTableWord 16 0x7FFF = some (.stepActive 0x7FFF 0) ∧
  decodeTableWord 8 0x03 = some .read ∧ decodeTableWord 8 0x0B = some .fastRead ∧
  decodeTableWord 8 0x13 = some .read4b ∧ decodeTableWord 8 0x6B = some .quadRead6b ∧
  decodeTableWord 8 0xEB = some .quadRead ∧ decodeTableWord 8 0xB7 = some .en4b ∧
  decodeTableWord 8 0x9F = some (.unknown 0x9F) ∧ decodeTableWord 8 0x00 = some (.unknown 0x00) ∧
  decodeTableWord 12 0 = none ∧ decodeTableWord 8 0x100 = none

/-- 30_encoding.md section 1: only the five configured bits of a sample word matter, chip select and the four lanes; the
other bits are never read. -/
def Obligations.UnusedSampleBitsIgnored : Prop :=
  ∀ (s : State) (t : Nat) (w w' : Word),
    w.getLsbD s.cfg.csBit = w'.getLsbD s.cfg.csBit → w.getLsbD s.cfg.hoBit = w'.getLsbD s.cfg.hoBit →
    w.getLsbD s.cfg.diBit = w'.getLsbD s.cfg.diBit →
    w.getLsbD s.cfg.lane2Bit = w'.getLsbD s.cfg.lane2Bit → w.getLsbD s.cfg.lane3Bit = w'.getLsbD s.cfg.lane3Bit →
      exec (.stepIdle w t) s = exec (.stepIdle w' t) s ∧
      exec (.stepActive w t) s = exec (.stepActive w' t) s ∧
      exec (.stepStartFresh w t) s = exec (.stepStartFresh w' t) s ∧
      exec (.stepStartCont w t) s = exec (.stepStartCont w' t) s

/-! ### Reset and invariants -/

/-- 70_reset_and_hazards.md R250: every field of 10_state.md after reset, for every configuration. -/
def Obligations.ResetLeavesTheTableValues : Prop :=
  ∀ c : Config,
    (State.resetWith c).gapThr = c.gapInit ∧ (State.resetWith c).lastTs = none ∧
    (State.resetWith c).burstOpen = false ∧ (State.resetWith c).bStartTs = 0 ∧ (State.resetWith c).h2d = [] ∧
    (State.resetWith c).d2h = [] ∧ (State.resetWith c).edge = 0 ∧ (State.resetWith c).qthr = none ∧
    (State.resetWith c).dummy = 0 ∧ (State.resetWith c).opcode = none ∧ (State.resetWith c).accHo = 0 ∧
    (State.resetWith c).accDi = 0 ∧ (State.resetWith c).accQ = 0 ∧ (State.resetWith c).cont = false ∧
    (State.resetWith c).addrw = c.initAddrWidth ∧ (State.resetWith c).txnCount = 0 ∧
    (State.resetWith c).orphanCount = 0 ∧ State.reset = State.resetWith defaultConfig ∧
    defaultConfig.initAddrWidth = 3

/-- 10_state.md section 2: the invariants hold after reset under every admitted configuration. -/
def Obligations.InvariantsHoldAtReset : Prop :=
  ∀ c : Config, admitted c = true → RunInv (State.resetWith c)

/-- 10_state.md section 2, 42_continuous.md section 2, 41_lane_assembler.md section 5: every step from a state with the
invariants (`RunInv`: the five of R37, the flag's support, the legal width, the open burst's timestamp and count, and
length accounting) leads to a state with them. -/
def Obligations.EveryStepKeepsTheInvariants : Prop :=
  ∀ s s' : State, RunInv s → step s = .next s' → RunInv s'

/-- 10_state.md section 2: in every state of every run the five invariants hold, whatever samples the host delivers,
and the configuration is the one at reset. -/
def Obligations.InvariantsHoldOnEveryRun : Prop :=
  ∀ (c : Config) (s : State), admitted c = true → Reachable c s → SpecInv s ∧ s.cfg = c ∧ s.cfg0 = c

/-- 60_exceptions.md section 2: from a state with the invariants a step is refused for one of the spec's five reasons or
not at all, so the model's own refusal (log 12) never happens on a run. -/
def Obligations.RefusalsAreTheFiveOfTheSpec : Prop :=
  ∀ s : State, RunInv s → SafeStep s

/-- 60_exceptions.md section 1: with no counter width configured, no sample that the spec gives a meaning to is turned
away: from a state with the invariants the step answers a next state. -/
def Obligations.AcceptedSamplesAlwaysStep : Prop :=
  ∀ (s : State) (smp : Sample) (rest : List Sample),
    RunInv s → s.input = smp :: rest → Accepts s smp.t → s.cfg.edgeBits = none → ∃ s', step s = .next s'

/-! ### The step -/

/-- 40_boundary.md R100: the machine, built from the rows of the opcode table, is the spec's pseudocode. The first
hypothesis rules out the states of log 12, which no run reaches (`RunInv`). -/
def Obligations.StepIsThePseudocode : Prop :=
  ∀ (s : State) (w : Word) (t : Nat) (rest : List Sample),
    (s.cont = true → s.opcode ≠ none) → s.input = ⟨w, t⟩ :: rest →
      (Accepts s t → step s = pseudoStep w t { s with input := rest }) ∧
      (admitted s.cfg = true → s.cfg = s.cfg0 → (∀ k, s.cfg.tsBits = some k → t < 2 ^ k) →
        ∀ p, s.lastTs = some p → t < p → step s = .refused .timestampDecreased)

/-- The step runs the decoded instruction (log 1, log 10): it takes the oldest delivered sample, and runs the row that
the sample is in this state, which is one of the rows that the sample's word matches. -/
def Obligations.StepRunsTheSelectedRow : Prop :=
  ∀ (s : State) (w : Word) (t : Nat) (rest : List Sample), s.input = ⟨w, t⟩ :: rest →
    step s = exec (selectStep s w t) { s with input := rest } ∧
    selectStep s w t ∈ matchingRows s.cfg (.sample w t) ∧ (selectStep s w t).wf s.cfg = true

/-- The implicit end runs the decoded command (43_classifier.md section 1, log 14): the open burst's first byte is
decoded under the configured table, and the row it decodes to is run. -/
def Obligations.ImplicitEndRunsTheCommandRow : Prop :=
  ∀ (s : State) (op : Byte) (rest : List Byte), s.burstOpen = true → s.h2d = op :: rest →
    implicitEnd s = exec (decode s.cfg (.command op)) s ∧
    (∀ p, s.lastTs = some p → implicitEnd s =
      .next { s with
        out := (classify s.cfg s.addrw s.h2d s.d2h s.bStartTs p).1
        addrw := (classify s.cfg s.addrw s.h2d s.d2h s.bStartTs p).2 })

/-- With no sample delivered a step changes nothing and offers no record (log 2). -/
def Obligations.NoSampleNoWork : Prop :=
  ∀ s : State, s.input = [] → admitted s.cfg = true → s.cfg = s.cfg0 → step s = .next { s with out := none }

/-- 40_boundary.md R104: when a burst starts, and which start it is. -/
def Obligations.StartCondition : Prop :=
  ∀ (s : State) (w : Word) (t : Nat),
    ((selectStep s w t = .stepStartFresh w t ∨ selectStep s w t = .stepStartCont w t) ↔
      (min (4 * gap s t) s.gapThr < gap s t ∧ w.getLsbD s.cfg.csBit = false)) ∧
    (selectStep s w t = .stepStartFresh w t → s.cont = false) ∧
    (selectStep s w t = .stepStartCont w t → s.cont = true)

/-- 40_boundary.md section 4: the start condition in closed form, the first sample, and the zero gap. -/
def Obligations.StartConditionClosedForm : Prop :=
  ∀ (s : State) (w : Word) (t : Nat),
    ((selectStep s w t = .stepStartFresh w t ∨ selectStep s w t = .stepStartCont w t) ↔
      (w.getLsbD s.cfg.csBit = false ∧ s.gapThr < gap s t)) ∧
    (s.lastTs = none → w.getLsbD s.cfg.csBit = false → selectStep s w t = .stepActive w t) ∧
    (∀ p, s.lastTs = some p → s.gapThr = 0 → p < t → w.getLsbD s.cfg.csBit = false →
      selectStep s w t = .stepStartFresh w t ∨ selectStep s w t = .stepStartCont w t)

/-- 40_boundary.md R102, R103, R109: every sample, idle or active, tightens the threshold and records its timestamp. -/
def Obligations.EverySampleUpdatesThresholdAndTimestamp : Prop :=
  ∀ (s s' : State) (w : Word) (t : Nat) (rest : List Sample),
    s.input = ⟨w, t⟩ :: rest → step s = .next s' →
      s'.lastTs = some t ∧
      (s.lastTs = none → s'.gapThr = min (4 * s.gapThr) s.gapThr) ∧
      (∀ p, s.lastTs = some p → p ≤ t ∧ s'.gapThr = min (4 * (t - p)) s.gapThr)

/-- 40_boundary.md R119: no instruction and no step increases the threshold. -/
def Obligations.ThresholdNeverIncreases : Prop :=
  (∀ s s' : State, step s = .next s' → s'.gapThr ≤ s.gapThr) ∧
  (∀ (i : Instr) (s s' : State), exec i s = .next s' → s'.gapThr ≤ s.gapThr)

/-- 40_boundary.md R101: every whole step refuses a decreasing timestamp, and admits an equal one, whose gap is 0; an
idle sample with it always steps. Which refusal is named when another reason holds too is log 13. -/
def Obligations.TimestampOrder : Prop :=
  ∀ (s : State) (w : Word) (t p : Nat), s.lastTs = some p →
    (t < p → ∀ i ∈ [Instr.stepIdle w t, .stepActive w t, .stepStartFresh w t, .stepStartCont w t],
      ∃ r, exec i s = .refused r) ∧
    (admitted s.cfg = true → s.cfg = s.cfg0 → (∀ k, s.cfg.tsBits = some k → t < 2 ^ k) →
      (t < p → ∀ i ∈ [Instr.stepIdle w t, .stepActive w t, .stepStartFresh w t, .stepStartCont w t],
        exec i s = .refused .timestampDecreased) ∧
      (t = p → Accepts s t ∧ gap s t = 0 ∧ (w.getLsbD s.cfg.csBit = true → ∃ s', exec (.stepIdle w t) s = .next s')))

/-- 60_exceptions.md section 2: the conditions of the other refusals of a sample, in the order of log 13. -/
def Obligations.RefusalConditions : Prop :=
  ∀ (s : State) (w : Word) (t : Nat),
    ∀ i ∈ [Instr.stepIdle w t, .stepActive w t, .stepStartFresh w t, .stepStartCont w t],
      (admitted s.cfg0 = false → exec i s = .refused .badConfig) ∧
      (admitted s.cfg0 = true → s.cfg ≠ s.cfg0 → exec i s = .refused .configChanged) ∧
      (admitted s.cfg = true → s.cfg = s.cfg0 → ∀ k, s.cfg.tsBits = some k → 2 ^ k ≤ t →
        exec i s = .refused .tsOverflow)

/-- 00_scope.md section 3, 30_encoding.md section 3: what an admitted configuration is. That the three positions are bits of
the 16-bit word is their domain (log 9). The last three conjuncts are the
canonical form of the table's lists (log 8). -/
def Obligations.AdmittedConfigurations : Prop :=
  ∀ c : Config, admitted c = true ↔
    (c.initAddrWidth ∈ [1, 2, 3, 4] ∧
     (∃ n, ctrlOf c c.cmdtab.en4b = some n) ∧ (∃ n, ctrlOf c c.cmdtab.ex4b = some n) ∧
     dataOf c c.cmdtab.en4b = none ∧ dataOf c c.cmdtab.ex4b = none ∧ c.cmdtab.en4b ≠ c.cmdtab.ex4b ∧
     (∀ b ∈ [c.csBit, c.hoBit, c.diBit], b < 16) ∧ c.lane2Bit ≠ c.lane3Bit ∧
     (∀ b ∈ [c.lane2Bit, c.lane3Bit], 2 ≤ b ∧ b ≤ 14 ∧ b ≠ c.csBit ∧ b ≠ c.hoBit ∧ b ≠ c.diBit) ∧
     c.cmdtab.data.Pairwise (fun a b => a.1.toNat < b.1.toNat) ∧
     c.cmdtab.ctrl.Pairwise (fun a b => a.1.toNat < b.1.toNat) ∧
     c.cmdtab.cont.Pairwise (fun a b => a.1.toNat < b.1.toNat))

/-! ### The four whole steps -/

/-- 40_boundary.md R110: an idle sample writes the threshold and the timestamp and nothing else, and emits no record. -/
def Obligations.IdleStepEffect : Prop :=
  ∀ (s : State) (w : Word) (t : Nat), w.getLsbD s.cfg.csBit = true → Accepts s t →
    exec (.stepIdle w t) s = .next { s with gapThr := min (4 * gap s t) s.gapThr, lastTs := some t, out := none }

/-- 40_boundary.md R111: an active sample that starts no burst tightens, records its timestamp and is assembled; it
emits no record and leaves the burst's start, the width and the counter of bursts alone; where the edge counter cannot
count it, it is refused. -/
def Obligations.ActiveStepEffect : Prop :=
  ∀ (s : State) (w : Word) (t : Nat),
    w.getLsbD s.cfg.csBit = false → gap s t ≤ min (4 * gap s t) s.gapThr → Accepts s t →
      exec (.stepActive w t) s =
        assemble w { s with gapThr := min (4 * gap s t) s.gapThr, lastTs := some t, out := none } ∧
      (¬ EdgeFits s → exec (.stepActive w t) s = .refused .edgeOverflow) ∧
      (EdgeFits s → ∃ s', exec (.stepActive w t) s = .next s' ∧
        s'.edge = s.edge + 1 ∧ s'.gapThr = min (4 * gap s t) s.gapThr ∧ s'.lastTs = some t ∧ s'.out = none ∧
        s'.burstOpen = s.burstOpen ∧ s'.bStartTs = s.bStartTs ∧ s'.addrw = s.addrw ∧ s'.txnCount = s.txnCount ∧
        s'.cfg = s.cfg ∧ s'.cfg0 = s.cfg0 ∧ s'.input = s.input ∧
        (s.burstOpen = false → s'.h2d = s.h2d ∧ s'.d2h = s.d2h) ∧
        (s.burstOpen = true → s'.orphanCount = s.orphanCount) ∧
        (s.edge ≠ 7 → s'.opcode = s.opcode ∧ s'.qthr = s.qthr ∧ s'.dummy = s.dummy))

/-- 40_boundary.md R112 (with R105 to R107 and R109): a fresh start ends the open burst, opens the next one, resets the
burst's fields and assembles the sample as edge 0; the whole state after it. A one-value edge counter is excluded
(41_lane_assembler.md R140). -/
def Obligations.FreshStartEffect : Prop :=
  ∀ (s : State) (w : Word) (t : Nat),
    w.getLsbD s.cfg.csBit = false → min (4 * gap s t) s.gapThr < gap s t → s.cont = false → Accepts s t →
    s.cfg.edgeBits ≠ some 0 →
      ∃ p, s.lastTs = some p ∧
      ∀ r, r = (if s.burstOpen then classify s.cfg s.addrw s.h2d s.d2h s.bStartTs p else (none, s.addrw)) →
        exec (.stepStartFresh w t) s = .next { s with
          gapThr := min (4 * gap s t) s.gapThr, lastTs := some t, burstOpen := true, bStartTs := t
          h2d := [], d2h := [], edge := 1, qthr := none, dummy := 0, opcode := none
          accHo := BitVec.ofNat 8 (w.getLsbD s.cfg.hoBit).toNat, accDi := BitVec.ofNat 8 (w.getLsbD s.cfg.diBit).toNat, accQ := 0
          addrw := r.2, txnCount := s.txnCount + 1, out := r.1 }

/-- 40_boundary.md R113 (with R105, R106, R108 and R109): a continuous start ends the open burst, opens the next one with
the synthetic pair, keeps the opcode and the quad fields, and assembles the sample as edge 8; the whole state after it.
The hypotheses on `opcode` and `qthr` are 10_state.md R37 (c), which every run keeps (`SpecInv`). -/
def Obligations.ContinuousStartEffect : Prop :=
  ∀ (s : State) (w : Word) (t : Nat) (c : Byte),
    w.getLsbD s.cfg.csBit = false → min (4 * gap s t) s.gapThr < gap s t → s.cont = true → s.opcode = some c →
    s.qthr = some 8 → Accepts s t →
      ∃ p, s.lastTs = some p ∧
      ∀ r, r = (if s.burstOpen then classify s.cfg s.addrw s.h2d s.d2h s.bStartTs p else (none, s.addrw)) →
        exec (.stepStartCont w t) s = .next { s with
          gapThr := min (4 * gap s t) s.gapThr, lastTs := some t, burstOpen := true, bStartTs := t
          h2d := [c], d2h := [0x00], edge := 9
          accQ := (s.accQ <<< 4) ||| (nibble s.cfg w).setWidth 8
          addrw := r.2, txnCount := s.txnCount + 1, out := r.1 }

/-! ### The lane assembler -/

/-- 41_lane_assembler.md R132: the single-lane shift; the byte is `(2 * acc + bit) mod 256`, and nothing else changes. -/
def Obligations.SingleLaneShift : Prop :=
  ∀ (s : State) (w : Word), SingleLane s →
    exec (.slShift w) s = .next { s with
      accHo := BitVec.ofNat 8 (2 * s.accHo.toNat + (w.getLsbD s.cfg.hoBit).toNat)
      accDi := BitVec.ofNat 8 (2 * s.accDi.toNat + (w.getLsbD s.cfg.diBit).toNat) }

/-- 41_lane_assembler.md R133 to R135: every eighth single-lane edge pushes the pair and clears the accumulators; at
edge 7 the pushed byte is the opcode, and a continuation opcode switches to quad lanes. The whole state after it. -/
def Obligations.SingleLaneFlush : Prop :=
  ∀ (s : State) (w : Word), SingleLane s → s.edge % 8 = 7 →
    (s.edge ≠ 7 → exec (.slFlush w) s = .next { push s.accHo s.accDi s with accHo := 0, accDi := 0 }) ∧
    (s.edge = 7 → contOf s.cfg s.accHo = none →
      exec (.slFlush w) s = .next { push s.accHo s.accDi s with opcode := some s.accHo, accHo := 0, accDi := 0 }) ∧
    (∀ d, s.edge = 7 → contOf s.cfg s.accHo = some d →
      exec (.slFlush w) s = .next { push s.accHo s.accDi s with
        opcode := some s.accHo, qthr := some 8, dummy := d, accHo := 0, accDi := 0 })

/-- 41_lane_assembler.md R134: at edge 7 the byte just pushed becomes the opcode, and nothing else changes. -/
def Obligations.OpcodeCapture : Prop :=
  ∀ (s : State) (w : Word), SingleLane s → s.edge = 7 →
    exec (.slOpcode w) s = .next { s with opcode := some s.accHo }

/-- 41_lane_assembler.md R135: after the capture of a continuation opcode the quad-switch threshold is 8 and the dummy
count the table's; after any other opcode nothing changes. -/
def Obligations.ContinuationDetect : Prop :=
  ∀ (s : State) (w : Word) (b : Byte), SingleLane s → s.edge = 7 → s.opcode = some b →
    (∀ d, contOf s.cfg b = some d → exec (.slContDetect w) s = .next { s with qthr := some 8, dummy := d }) ∧
    (contOf s.cfg b = none → exec (.slContDetect w) s = .next s)

/-- 41_lane_assembler.md R136, 20_memory.md R54: the quad shift; the byte is `(16 * acc + nibble) mod 256` with IO3 the
nibble's top bit, and nothing else changes. -/
def Obligations.QuadLaneShift : Prop :=
  ∀ (s : State) (w : Word) (q : Nat), s.qthr = some q → q ≤ s.edge →
    exec (.qShift w) s = .next { s with
      accQ := BitVec.ofNat 8 (16 * s.accQ.toNat + 8 * (w.getLsbD s.cfg.lane3Bit).toNat
        + 4 * (w.getLsbD s.cfg.lane2Bit).toNat + 2 * (w.getLsbD s.cfg.diBit).toNat + (w.getLsbD s.cfg.hoBit).toNat) }

/-- 41_lane_assembler.md R138: the direction of a flushed quad byte; nothing but the pair changes. -/
def Obligations.QuadDirection : Prop :=
  ∀ (s : State) (w : Word), QuadFlush s →
    (15 + s.dummy < s.edge → exec (.qDirection w) s = .next (push 0x00 s.accQ s)) ∧
    (s.edge ≤ 15 + s.dummy → exec (.qDirection w) s = .next (push s.accQ 0x00 s))

/-- 41_lane_assembler.md R137 to R139: every second quad edge flushes the byte in its direction, hands the mode byte to
the tracker, and clears the accumulator. The whole state after it. -/
def Obligations.QuadLaneFlush : Prop :=
  ∀ (s : State) (w : Word) (h d : Byte), QuadFlush s →
    (15 + s.dummy < s.edge → h = 0x00 ∧ d = s.accQ) → (s.edge ≤ 15 + s.dummy → h = s.accQ ∧ d = 0x00) →
      (¬ ModeByte s → exec (.qFlush w) s = .next { push h d s with accQ := 0 }) ∧
      (ModeByte s → exec (.qFlush w) s =
        .next { push h d s with accQ := 0, cont := decide (s.accQ &&& 0xF0 = 0xA0) })

/-- 42_continuous.md R160, 41_lane_assembler.md R139: the mode byte sets the flag exactly when its upper nibble is 0xA, as
the tracker's row and as the row that hands it over; nothing else changes. -/
def Obligations.ModeByteTracked : Prop :=
  ∀ (s : State) (w : Word), ModeByte s → ∀ i ∈ [Instr.track w, .qMode w],
    ((0xA0 ≤ s.accQ.toNat ∧ s.accQ.toNat ≤ 0xAF) → exec i s = .next { s with cont := true }) ∧
    (¬ (0xA0 ≤ s.accQ.toNat ∧ s.accQ.toNat ≤ 0xAF) → exec i s = .next { s with cont := false })

/-- 41_lane_assembler.md R140: the edge counter counts every assembled sample and no idle one, and its overflow is
refused, by the row and by the assembler that ends in it. -/
def Obligations.EdgeCount : Prop :=
  ∀ (s : State) (w : Word),
    ((∀ k, s.cfg.edgeBits = some k → s.edge + 1 ≠ 2 ^ k) →
      exec (.edgeInc w) s = .next { s with edge := s.edge + 1 } ∧
        ∃ s', assemble w s = .next s' ∧ s'.edge = s.edge + 1) ∧
    (∀ k, s.cfg.edgeBits = some k → s.edge + 1 = 2 ^ k →
      exec (.edgeInc w) s = .refused .edgeOverflow ∧ assemble w s = .refused .edgeOverflow) ∧
    (∀ t s', exec (.stepIdle w t) s = .next s' → s'.edge = s.edge)

/-- A row of the assembler whose condition does not hold changes nothing (log 11). -/
def Obligations.RowsOutsideTheirConditionChangeNothing : Prop :=
  ∀ (s : State) (w : Word),
    (¬ SingleLane s → ∀ i ∈ [Instr.slShift w, .slFlush w, .slOpcode w, .slContDetect w], exec i s = .next s) ∧
    (s.edge % 8 ≠ 7 → exec (.slFlush w) s = .next s) ∧
    (s.edge ≠ 7 → exec (.slOpcode w) s = .next s ∧ exec (.slContDetect w) s = .next s) ∧
    (SingleLane s → exec (.qShift w) s = .next s) ∧
    (¬ QuadFlush s → ∀ i ∈ [Instr.qFlush w, .qDirection w, .qMode w, .track w], exec i s = .next s) ∧
    (¬ ModeByte s → ∀ i ∈ [Instr.qMode w, .track w], exec i s = .next s)

/-- A whole step whose sample is of another class changes nothing once the sample is accepted (log 11), and a command
row changes nothing where no burst is open, no sample has been seen, or another byte stands first (log 15). -/
def Obligations.StepsAndCommandsOutsideTheirConditionChangeNothing : Prop :=
  (∀ (s : State) (w : Word) (t : Nat), Accepts s t →
    ∀ i ∈ [Instr.stepIdle w t, .stepActive w t, .stepStartFresh w t, .stepStartCont w t],
      i ≠ selectStep s w t → exec i s = .next s) ∧
  (∀ (s : State) (op : Byte) (i : Instr),
    (i, op) ∈ [(Instr.read, (0x03 : Byte)), (.fastRead, 0x0B), (.read4b, 0x13), (.quadRead6b, 0x6B), (.quadRead, 0xEB),
      (.en4b, s.cfg.cmdtab.en4b), (.ex4b, s.cfg.cmdtab.ex4b), (.unknown op, op)] →
    (s.burstOpen = false ∨ s.lastTs = none ∨ s.h2d.head? ≠ some op) → exec i s = .next s)

/-- 41_lane_assembler.md R141: a byte pair goes to the open burst, or is discarded and counted. -/
def Obligations.PushOrCountOrphan : Prop :=
  ∀ (s : State) (h d : Byte),
    (s.burstOpen = true → push h d s = { s with h2d := s.h2d ++ [h], d2h := s.d2h ++ [d] }) ∧
    (s.burstOpen = false → push h d s = { s with orphanCount := s.orphanCount + 1 })

/-- 41_lane_assembler.md section 5: in a fresh burst whose opcode is no continuation opcode, the bytes that the host-out
and device-in lanes carry, at the positions that the configuration gives them, are reproduced in the two sequences,
however many there are and whatever the other bits of the words are. -/
def Obligations.SingleLaneRoundTrip : Prop :=
  ∀ (s : State) (op d0 : Byte) (pairs : List (Byte × Byte)) (blocks : List (List Word)),
    s.burstOpen = true → s.h2d = [] → s.d2h = [] → s.edge = 0 → s.qthr = none → s.cfg.edgeBits = none →
    contOf s.cfg op = none →
    List.Forall₂ (fun ws hd => CarriesByte s.cfg ws hd.1 hd.2) blocks ((op, d0) :: pairs) →
      ∃ s', assembleAll blocks.flatten s = .next s' ∧
        s'.h2d = op :: pairs.map Prod.fst ∧ s'.d2h = d0 :: pairs.map Prod.snd ∧ s'.opcode = some op ∧
        s'.qthr = none ∧ s'.edge = 8 * (pairs.length + 1)

/-- 41_lane_assembler.md section 5: the two nibbles of quad byte k, at edges 8 + 2k and 9 + 2k, become element 1 + k of
the host-to-device sequence up to edge 15 + dummy, and of the device-to-host sequence after it, first nibble high. -/
def Obligations.QuadBytePosition : Prop :=
  ∀ (s : State) (w1 w2 : Word) (k : Nat) (b : Byte),
    s.burstOpen = true → s.qthr = some 8 → s.edge = 8 + 2 * k → s.h2d.length = 1 + k → s.d2h.length = 1 + k →
    s.cfg.edgeBits = none → b = nibble s.cfg w1 ++ nibble s.cfg w2 →
      ∃ s', assembleAll [w1, w2] s = .next s' ∧ s'.edge = s.edge + 2 ∧
        (9 + 2 * k ≤ 15 + s.dummy → s'.h2d[1 + k]? = some b ∧ s'.d2h[1 + k]? = some 0x00) ∧
        (15 + s.dummy < 9 + 2 * k → s'.h2d[1 + k]? = some 0x00 ∧ s'.d2h[1 + k]? = some b) ∧
        (k = 3 → (∃ c, s.opcode = some c ∧ contOf s.cfg c ≠ none) → s'.cont = decide (b &&& 0xF0 = 0xA0))

/-! ### The classifier and the filters -/

/-- 43_classifier.md R170, R184 to R188: a data row on a burst of its opcode, under any table that lists the opcode as
data: truncation, then the address filter, then the record; and the reference table's entries. Only the record
changes. -/
def Obligations.DataRowsResolveTheBurst : Prop :=
  (∀ (s : State) (p : Nat) (op d : Byte) (rest ds : List Byte) (e : DataEntry) (i : Instr),
    (i, op) ∈ [(Instr.read, (0x03 : Byte)), (.fastRead, 0x0B), (.read4b, 0x13), (.quadRead6b, 0x6B), (.quadRead, 0xEB)] →
    s.burstOpen = true → s.lastTs = some p → s.h2d = op :: rest → s.d2h = d :: ds → dataOf s.cfg op = some e →
      (rest.length < s.addrw →
        exec i s = .next { s with out := levelFilter s.cfg (.error op s.addrw s.bStartTs p) }) ∧
      (s.addrw ≤ rest.length → addrPass s.cfg (bigEndian (rest.take s.addrw)) = false →
        exec i s = .next { s with out := none }) ∧
      (s.addrw ≤ rest.length → addrPass s.cfg (bigEndian (rest.take s.addrw)) = true →
        exec i s = .next { s with out := levelFilter s.cfg (.data op e.name (bigEndian (rest.take s.addrw))
          (bigEndian (rest.take s.addrw) + ((rest.length + 1 : Int) - (s.addrw + 2 + e.adj)))
          ((rest.length + 1 : Int) - (s.addrw + 2 + e.adj)) s.addrw s.bStartTs p) })) ∧
  (∀ c : Config, c.cmdtab = refCmdTab →
    dataOf c 0x03 = some ⟨.given "Read", 0⟩ ∧ dataOf c 0x0B = some ⟨.given "Fast Read", 1⟩ ∧
    dataOf c 0x13 = some ⟨.openParam .name13, 0⟩ ∧ dataOf c 0x6B = some ⟨.openParam .name6B, 2⟩ ∧
    dataOf c 0xEB = some ⟨.given "Quad Read", 2⟩ ∧ contOf c 0x6B = some 4 ∧ contOf c 0xEB = some 4 ∧
    contOf c 0x03 = none ∧ contOf c 0x0B = none ∧ contOf c 0x13 = none)

/-- 43_classifier.md R189, R190: the two width switches, under any admitted configuration, whatever the level filter does
with their record; only the record and the width change. -/
def Obligations.WidthSwitchRows : Prop :=
  ∀ (s : State) (p : Nat) (d : Byte) (rest ds : List Byte), admitted s.cfg = true →
    s.burstOpen = true → s.lastTs = some p → s.d2h = d :: ds →
      (s.h2d = s.cfg.cmdtab.en4b :: rest → ∃ n, ctrlOf s.cfg s.cfg.cmdtab.en4b = some n ∧
        exec .en4b s = .next { s with
          out := levelFilter s.cfg (.control s.cfg.cmdtab.en4b (.known n) s.bStartTs p), addrw := 4 }) ∧
      (s.h2d = s.cfg.cmdtab.ex4b :: rest → ∃ n, ctrlOf s.cfg s.cfg.cmdtab.ex4b = some n ∧
        exec .ex4b s = .next { s with
          out := levelFilter s.cfg (.control s.cfg.cmdtab.ex4b (.known n) s.bStartTs p), addrw := 3 })

/-- 43_classifier.md R191 (with R181): an opcode with no entry gives a Control record with the raw opcode; only the
record changes. -/
def Obligations.UnknownRow : Prop :=
  ∀ (s : State) (p : Nat) (op d : Byte) (rest ds : List Byte),
    s.burstOpen = true → s.lastTs = some p → s.h2d = op :: rest → s.d2h = d :: ds →
    dataOf s.cfg op = none → ctrlOf s.cfg op = none →
      exec (.unknown op) s = .next { s with out := levelFilter s.cfg (.control op (.raw op) s.bStartTs p) }

/-- 43_classifier.md R180: the control branch for any control opcode: the record, and the width that the two switches
set before the filter. -/
def Obligations.ControlBranch : Prop :=
  ∀ (c : Config) (aw : Nat) (op d : Byte) (n : Name) (rest ds : List Byte) (ts0 ts1 : Nat),
    dataOf c op = none → ctrlOf c op = some n → c.cmdtab.en4b ≠ c.cmdtab.ex4b →
      (classify c aw (op :: rest) (d :: ds) ts0 ts1).1 = levelFilter c (.control op (.known n) ts0 ts1) ∧
      (op = c.cmdtab.en4b → (classify c aw (op :: rest) (d :: ds) ts0 ts1).2 = 4) ∧
      (op = c.cmdtab.ex4b → (classify c aw (op :: rest) (d :: ds) ts0 ts1).2 = 3) ∧
      (op ≠ c.cmdtab.en4b → op ≠ c.cmdtab.ex4b → (classify c aw (op :: rest) (d :: ds) ts0 ts1).2 = aw)

/-- 43_classifier.md R174: a truncated data command gives an Error record, through the level filter only, whatever the
address filter. -/
def Obligations.TruncatedDataCommand : Prop :=
  ∀ (c : Config) (aw : Nat) (op d : Byte) (e : DataEntry) (rest ds : List Byte) (ts0 ts1 : Nat),
    dataOf c op = some e → (op :: rest).length < 1 + aw →
      classify c aw (op :: rest) (d :: ds) ts0 ts1 = (levelFilter c (.error op aw ts0 ts1), aw)

/-- 43_classifier.md R171: a burst with an empty sequence is discarded with no record and no state written, by the
classifier and by the implicit end. -/
def Obligations.EmptyBurstDiscarded : Prop :=
  (∀ (c : Config) (aw : Nat) (h2d d2h : List Byte) (ts0 ts1 : Nat), h2d = [] ∨ d2h = [] →
    classify c aw h2d d2h ts0 ts1 = (none, aw)) ∧
  (∀ s : State, s.burstOpen = true → s.h2d = [] → implicitEnd s = .next s)

/-- 43_classifier.md R175, 00_scope.md R10: the address is the big-endian value of the bytes after the opcode, and below
256 to their number. -/
def Obligations.AddressIsBigEndian : Prop :=
  ∀ (aw : Nat) (op : Byte) (bs rest : List Byte), bs.length = aw →
    addressOf aw (op :: (bs ++ rest)) = ∑ i : Fin bs.length, (bs.get i).toNat * 256 ^ (bs.length - 1 - i.val) ∧
    addressOf aw (op :: (bs ++ rest)) < 256 ^ aw

/-- 43_classifier.md section 3: with the reference table and three address bytes, a Fast Read of 3 + 2 + 1 + P bytes and
a Quad Read of 3 + 2 + 2 + P bytes report the count P. -/
def Obligations.HeaderIdentities : Prop :=
  ∀ (c : Config) (op d : Byte) (adj P : Nat) (rest ds : List Byte) (ts0 ts1 : Nat),
    c.cmdtab = refCmdTab → c.level = .everything → c.addrMin = 0 → c.addrMax = none →
    (op, adj) ∈ [((0x0B : Byte), 1), (0xEB, 2), (0x6B, 2)] → (op :: rest).length = 3 + 2 + adj + P →
      ∃ n, (classify c 3 (op :: rest) (d :: ds) ts0 ts1).1 =
        some (.data op n (addressOf 3 (op :: rest)) (addressOf 3 (op :: rest) + (P : Int)) P 3 ts0 ts1)

/-- 43_classifier.md R176 to R179: the data branch past the truncation check. A filtered address gives no record; else the
count and the end address are exact integers, the count as low as `-(1 + adj)`, at `n = 1 + aw`, and no lower. -/
def Obligations.DataBranch : Prop :=
  ∀ (c : Config) (aw : Nat) (op d : Byte) (e : DataEntry) (rest ds : List Byte) (ts0 ts1 addr : Nat) (cnt : Int),
    dataOf c op = some e → aw ≤ rest.length → addr = bigEndian (rest.take aw) →
    cnt = (rest.length + 1 : Int) - (aw + 2 + e.adj) →
      (addrPass c addr = false → classify c aw (op :: rest) (d :: ds) ts0 ts1 = (none, aw)) ∧
      (addrPass c addr = true → classify c aw (op :: rest) (d :: ds) ts0 ts1 =
        (levelFilter c (.data op e.name addr (addr + cnt) cnt aw ts0 ts1), aw)) ∧
      -(1 + (e.adj : Int)) ≤ cnt ∧ (rest.length = aw → cnt = -(1 + (e.adj : Int)))

/-- 44_filters.md R210: when the address filter drops an address; and it is applied in the data branch only, past the
truncation check: everywhere else its bounds do not matter. -/
def Obligations.AddressFilter : Prop :=
  (∀ (c : Config) (addr : Nat), addrPass c addr = false ↔
    ((0 < c.addrMin ∧ addr < c.addrMin) ∨ ∃ m, c.addrMax = some m ∧ m < addr)) ∧
  (∀ (c : Config) (lo : Nat) (hi : Option Nat) (aw : Nat) (op : Byte) (rest d2h : List Byte) (ts0 ts1 : Nat),
    dataOf c op = none ∨ rest.length < aw →
      classify { c with addrMin := lo, addrMax := hi } aw (op :: rest) d2h ts0 ts1 =
        classify c aw (op :: rest) d2h ts0 ts1)

/-- 44_filters.md R211: the output-level matrix, cell by cell. -/
def Obligations.LevelFilterMatrix : Prop :=
  ∀ (c : Config) (r : Record), levelFilter c r =
    (match c.level, r with
     | .everything, _ => some r
     | .onlyData, .error .. => if c.errPassesDc then some r else none
     | .onlyData, .control .. => none
     | .onlyData, .data .. => some r
     | .onlyErrors, .error .. => some r
     | .onlyErrors, _ => none
     | .onlyControl, .error .. => if c.errPassesDc then some r else none
     | .onlyControl, .control .. => some r
     | .onlyControl, .data .. => none)

/-- 44_filters.md section on idempotence: filtering a record stream twice at one level gives what filtering it once
gives, in the same order. -/
def Obligations.LevelFilterIdempotent : Prop :=
  ∀ (c : Config) (rs : List Record),
    (rs.filterMap (levelFilter c)).filterMap (levelFilter c) = rs.filterMap (levelFilter c) ∧
    (rs.filterMap (levelFilter c)).Sublist rs

/-! ### Whole-machine rules -/

/-- 42_continuous.md R161: the flag changes only at the edge-15 quad flush of a continuation opcode; not at a
classification, a burst start or an idle sample. -/
def Obligations.OnlyTheTrackerWritesTheFlag : Prop :=
  ∀ (i : Instr) (s s' : State), exec i s = .next s' → s'.cont ≠ s.cont →
    ModeByte s ∧ ∃ w t, i ∈ [Instr.stepActive w t, .qFlush w, .qMode w, .track w]

/-- 10_state.md R32, 43_classifier.md section 1: the address width changes only where a burst whose first byte is one of
the two switch opcodes is classified, by a start or by a command row, to 4 and to 3. -/
def Obligations.OnlyTheClassifierWritesTheWidth : Prop :=
  ∀ (i : Instr) (s s' : State), exec i s = .next s' → s'.addrw ≠ s.addrw →
    (∃ op, s.h2d.head? = some op ∧
      ((op = s.cfg.cmdtab.en4b ∧ s'.addrw = 4) ∨ (op = s.cfg.cmdtab.ex4b ∧ s'.addrw = 3))) ∧
    ∃ w t op, i ∈ [Instr.stepStartFresh w t, .stepStartCont w t, .read, .fastRead, .read4b, .quadRead6b, .quadRead,
      .en4b, .ex4b, .unknown op]

/-- 10_state.md R35 and the ports: no instruction writes the configuration or the pending input, and a step takes
exactly the oldest pending sample. -/
def Obligations.ConfigurationIsReadOnly : Prop :=
  (∀ (i : Instr) (s s' : State), exec i s = .next s' → s'.cfg = s.cfg ∧ s'.cfg0 = s.cfg0 ∧ s'.input = s.input) ∧
  (∀ s s' : State, step s = .next s' → s'.cfg = s.cfg ∧ s'.cfg0 = s.cfg0 ∧ s'.input = s.input.drop 1)

/-- 10_state.md R26, R33, R23: what a step leaves in the edge counter, the transaction counter and the burst-open flag,
for an idle sample, an active one, and the two starts. -/
def Obligations.CountersOfAStep : Prop :=
  ∀ (s s' : State) (w : Word) (t : Nat) (rest : List Sample), s.input = ⟨w, t⟩ :: rest → step s = .next s' →
    (w.getLsbD s.cfg.csBit = true → s'.edge = s.edge ∧ s'.txnCount = s.txnCount ∧ s'.burstOpen = s.burstOpen) ∧
    (w.getLsbD s.cfg.csBit = false → gap s t ≤ s.gapThr →
      s'.edge = s.edge + 1 ∧ s'.txnCount = s.txnCount ∧ s'.burstOpen = s.burstOpen) ∧
    (w.getLsbD s.cfg.csBit = false → s.gapThr < gap s t → s.cont = false →
      s'.edge = 1 ∧ s'.txnCount = s.txnCount + 1 ∧ s'.burstOpen = true) ∧
    (w.getLsbD s.cfg.csBit = false → s.gapThr < gap s t → s.cont = true →
      s'.edge = 9 ∧ s'.txnCount = s.txnCount + 1 ∧ s'.burstOpen = true)

/-- 60_exceptions.md section 6, 10_state.md section 2: no rule reads the two diagnostic counters: with other values in
them every instruction does the same, to every other field and in every refusal. -/
def Obligations.DiagnosticCountersAreNeverRead : Prop :=
  ∀ (i : Instr) (s : State) (n m : Nat),
    (∀ s', exec i s = .next s' → ∃ n' m', exec i { s with txnCount := n, orphanCount := m } =
      .next { s' with txnCount := n', orphanCount := m' }) ∧
    (∀ r, exec i s = .refused r → exec i { s with txnCount := n, orphanCount := m } = .refused r)

/-- 60_exceptions.md sections 1 and 4: the one error does not stop the block. In a state with the invariants, a sample
that ends a burst of a truncated data command gives the Error record through the level filter, keeps the width, and
opens the next burst; and whatever accepted sample follows, the block steps on it. The counter of edges is unbounded
here, so that no refusal of the spec applies. -/
def Obligations.AnErrorNeverStopsTheBlock : Prop :=
  ∀ (s : State) (w : Word) (t : Nat) (rest : List Sample) (op : Byte) (bs : List Byte) (e : DataEntry),
    RunInv s → s.input = ⟨w, t⟩ :: rest → Accepts s t → s.cfg.edgeBits = none →
    w.getLsbD s.cfg.csBit = false → s.gapThr < gap s t → s.burstOpen = true → s.h2d = op :: bs →
    dataOf s.cfg op = some e → bs.length < s.addrw →
      ∃ p s', s.lastTs = some p ∧ step s = .next s' ∧
        s'.out = levelFilter s.cfg (.error op s.addrw s.bStartTs p) ∧ s'.addrw = s.addrw ∧ s'.cont = s.cont ∧
        s'.burstOpen = true ∧ s'.bStartTs = t ∧ s'.txnCount = s.txnCount + 1 ∧
        (∀ (w' : Word) (t' : Nat), Accepts s' t' → ∃ s'', step { s' with input := [⟨w', t'⟩] } = .next s'')
end

