-- ==== Sys2Proof/Laws/State.lean ====
section
/-! SUPPORT. One lemma per field per update of the state: what each named operation of Machine/Ops.lean leaves in each
field. No later proof unfolds a record update. -/

namespace Sys2Proof.Machine

/-! ### tighten -/

@[simp] theorem tighten_gapThr (t : Nat) (s : State) : (tighten t s).gapThr = tightened s t := rfl
@[simp] theorem tighten_lastTs (t : Nat) (s : State) : (tighten t s).lastTs = s.lastTs := rfl
@[simp] theorem tighten_burstOpen (t : Nat) (s : State) : (tighten t s).burstOpen = s.burstOpen := rfl
@[simp] theorem tighten_bStartTs (t : Nat) (s : State) : (tighten t s).bStartTs = s.bStartTs := rfl
@[simp] theorem tighten_h2d (t : Nat) (s : State) : (tighten t s).h2d = s.h2d := rfl
@[simp] theorem tighten_d2h (t : Nat) (s : State) : (tighten t s).d2h = s.d2h := rfl
@[simp] theorem tighten_edge (t : Nat) (s : State) : (tighten t s).edge = s.edge := rfl
@[simp] theorem tighten_qthr (t : Nat) (s : State) : (tighten t s).qthr = s.qthr := rfl
@[simp] theorem tighten_dummy (t : Nat) (s : State) : (tighten t s).dummy = s.dummy := rfl
@[simp] theorem tighten_opcode (t : Nat) (s : State) : (tighten t s).opcode = s.opcode := rfl
@[simp] theorem tighten_accHo (t : Nat) (s : State) : (tighten t s).accHo = s.accHo := rfl
@[simp] theorem tighten_accDi (t : Nat) (s : State) : (tighten t s).accDi = s.accDi := rfl
@[simp] theorem tighten_accQ (t : Nat) (s : State) : (tighten t s).accQ = s.accQ := rfl
@[simp] theorem tighten_cont (t : Nat) (s : State) : (tighten t s).cont = s.cont := rfl
@[simp] theorem tighten_addrw (t : Nat) (s : State) : (tighten t s).addrw = s.addrw := rfl
@[simp] theorem tighten_txnCount (t : Nat) (s : State) : (tighten t s).txnCount = s.txnCount := rfl
@[simp] theorem tighten_orphanCount (t : Nat) (s : State) : (tighten t s).orphanCount = s.orphanCount := rfl
@[simp] theorem tighten_cfg (t : Nat) (s : State) : (tighten t s).cfg = s.cfg := rfl
@[simp] theorem tighten_cfg0 (t : Nat) (s : State) : (tighten t s).cfg0 = s.cfg0 := rfl
@[simp] theorem tighten_input (t : Nat) (s : State) : (tighten t s).input = s.input := rfl
@[simp] theorem tighten_out (t : Nat) (s : State) : (tighten t s).out = none := rfl

/-! ### stamp -/

@[simp] theorem stamp_gapThr (t : Nat) (s : State) : (stamp t s).gapThr = s.gapThr := rfl
@[simp] theorem stamp_lastTs (t : Nat) (s : State) : (stamp t s).lastTs = some t := rfl
@[simp] theorem stamp_burstOpen (t : Nat) (s : State) : (stamp t s).burstOpen = s.burstOpen := rfl
@[simp] theorem stamp_bStartTs (t : Nat) (s : State) : (stamp t s).bStartTs = s.bStartTs := rfl
@[simp] theorem stamp_h2d (t : Nat) (s : State) : (stamp t s).h2d = s.h2d := rfl
@[simp] theorem stamp_d2h (t : Nat) (s : State) : (stamp t s).d2h = s.d2h := rfl
@[simp] theorem stamp_edge (t : Nat) (s : State) : (stamp t s).edge = s.edge := rfl
@[simp] theorem stamp_qthr (t : Nat) (s : State) : (stamp t s).qthr = s.qthr := rfl
@[simp] theorem stamp_dummy (t : Nat) (s : State) : (stamp t s).dummy = s.dummy := rfl
@[simp] theorem stamp_opcode (t : Nat) (s : State) : (stamp t s).opcode = s.opcode := rfl
@[simp] theorem stamp_accHo (t : Nat) (s : State) : (stamp t s).accHo = s.accHo := rfl
@[simp] theorem stamp_accDi (t : Nat) (s : State) : (stamp t s).accDi = s.accDi := rfl
@[simp] theorem stamp_accQ (t : Nat) (s : State) : (stamp t s).accQ = s.accQ := rfl
@[simp] theorem stamp_cont (t : Nat) (s : State) : (stamp t s).cont = s.cont := rfl
@[simp] theorem stamp_addrw (t : Nat) (s : State) : (stamp t s).addrw = s.addrw := rfl
@[simp] theorem stamp_txnCount (t : Nat) (s : State) : (stamp t s).txnCount = s.txnCount := rfl
@[simp] theorem stamp_orphanCount (t : Nat) (s : State) : (stamp t s).orphanCount = s.orphanCount := rfl
@[simp] theorem stamp_cfg (t : Nat) (s : State) : (stamp t s).cfg = s.cfg := rfl
@[simp] theorem stamp_cfg0 (t : Nat) (s : State) : (stamp t s).cfg0 = s.cfg0 := rfl
@[simp] theorem stamp_input (t : Nat) (s : State) : (stamp t s).input = s.input := rfl
@[simp] theorem stamp_out (t : Nat) (s : State) : (stamp t s).out = s.out := rfl

/-! ### openBurst -/

@[simp] theorem openBurst_gapThr (t : Nat) (s : State) : (openBurst t s).gapThr = s.gapThr := rfl
@[simp] theorem openBurst_lastTs (t : Nat) (s : State) : (openBurst t s).lastTs = s.lastTs := rfl
@[simp] theorem openBurst_burstOpen (t : Nat) (s : State) : (openBurst t s).burstOpen = true := rfl
@[simp] theorem openBurst_bStartTs (t : Nat) (s : State) : (openBurst t s).bStartTs = t := rfl
@[simp] theorem openBurst_h2d (t : Nat) (s : State) : (openBurst t s).h2d = [] := rfl
@[simp] theorem openBurst_d2h (t : Nat) (s : State) : (openBurst t s).d2h = [] := rfl
@[simp] theorem openBurst_edge (t : Nat) (s : State) : (openBurst t s).edge = 0 := rfl
@[simp] theorem openBurst_qthr (t : Nat) (s : State) : (openBurst t s).qthr = s.qthr := rfl
@[simp] theorem openBurst_dummy (t : Nat) (s : State) : (openBurst t s).dummy = s.dummy := rfl
@[simp] theorem openBurst_opcode (t : Nat) (s : State) : (openBurst t s).opcode = s.opcode := rfl
@[simp] theorem openBurst_accHo (t : Nat) (s : State) : (openBurst t s).accHo = s.accHo := rfl
@[simp] theorem openBurst_accDi (t : Nat) (s : State) : (openBurst t s).accDi = s.accDi := rfl
@[simp] theorem openBurst_accQ (t : Nat) (s : State) : (openBurst t s).accQ = s.accQ := rfl
@[simp] theorem openBurst_cont (t : Nat) (s : State) : (openBurst t s).cont = s.cont := rfl
@[simp] theorem openBurst_addrw (t : Nat) (s : State) : (openBurst t s).addrw = s.addrw := rfl
@[simp] theorem openBurst_txnCount (t : Nat) (s : State) : (openBurst t s).txnCount = s.txnCount + 1 := rfl
@[simp] theorem openBurst_orphanCount (t : Nat) (s : State) : (openBurst t s).orphanCount = s.orphanCount := rfl
@[simp] theorem openBurst_cfg (t : Nat) (s : State) : (openBurst t s).cfg = s.cfg := rfl
@[simp] theorem openBurst_cfg0 (t : Nat) (s : State) : (openBurst t s).cfg0 = s.cfg0 := rfl
@[simp] theorem openBurst_input (t : Nat) (s : State) : (openBurst t s).input = s.input := rfl
@[simp] theorem openBurst_out (t : Nat) (s : State) : (openBurst t s).out = s.out := rfl

/-! ### freshStart -/

@[simp] theorem freshStart_gapThr (s : State) : (freshStart s).gapThr = s.gapThr := rfl
@[simp] theorem freshStart_lastTs (s : State) : (freshStart s).lastTs = s.lastTs := rfl
@[simp] theorem freshStart_burstOpen (s : State) : (freshStart s).burstOpen = s.burstOpen := rfl
@[simp] theorem freshStart_bStartTs (s : State) : (freshStart s).bStartTs = s.bStartTs := rfl
@[simp] theorem freshStart_h2d (s : State) : (freshStart s).h2d = s.h2d := rfl
@[simp] theorem freshStart_d2h (s : State) : (freshStart s).d2h = s.d2h := rfl
@[simp] theorem freshStart_edge (s : State) : (freshStart s).edge = s.edge := rfl
@[simp] theorem freshStart_qthr (s : State) : (freshStart s).qthr = none := rfl
@[simp] theorem freshStart_dummy (s : State) : (freshStart s).dummy = 0 := rfl
@[simp] theorem freshStart_opcode (s : State) : (freshStart s).opcode = none := rfl
@[simp] theorem freshStart_accHo (s : State) : (freshStart s).accHo = 0 := rfl
@[simp] theorem freshStart_accDi (s : State) : (freshStart s).accDi = 0 := rfl
@[simp] theorem freshStart_accQ (s : State) : (freshStart s).accQ = 0 := rfl
@[simp] theorem freshStart_cont (s : State) : (freshStart s).cont = s.cont := rfl
@[simp] theorem freshStart_addrw (s : State) : (freshStart s).addrw = s.addrw := rfl
@[simp] theorem freshStart_txnCount (s : State) : (freshStart s).txnCount = s.txnCount := rfl
@[simp] theorem freshStart_orphanCount (s : State) : (freshStart s).orphanCount = s.orphanCount := rfl
@[simp] theorem freshStart_cfg (s : State) : (freshStart s).cfg = s.cfg := rfl
@[simp] theorem freshStart_cfg0 (s : State) : (freshStart s).cfg0 = s.cfg0 := rfl
@[simp] theorem freshStart_input (s : State) : (freshStart s).input = s.input := rfl
@[simp] theorem freshStart_out (s : State) : (freshStart s).out = s.out := rfl

/-! ### preseed -/

@[simp] theorem preseed_gapThr (s : State) : (preseed s).gapThr = s.gapThr := rfl
@[simp] theorem preseed_lastTs (s : State) : (preseed s).lastTs = s.lastTs := rfl
@[simp] theorem preseed_burstOpen (s : State) : (preseed s).burstOpen = s.burstOpen := rfl
@[simp] theorem preseed_bStartTs (s : State) : (preseed s).bStartTs = s.bStartTs := rfl
@[simp] theorem preseed_h2d (s : State) : (preseed s).h2d = s.h2d := rfl
@[simp] theorem preseed_d2h (s : State) : (preseed s).d2h = s.d2h := rfl
@[simp] theorem preseed_edge (s : State) : (preseed s).edge = contPreseed := rfl
@[simp] theorem preseed_qthr (s : State) : (preseed s).qthr = s.qthr := rfl
@[simp] theorem preseed_dummy (s : State) : (preseed s).dummy = s.dummy := rfl
@[simp] theorem preseed_opcode (s : State) : (preseed s).opcode = s.opcode := rfl
@[simp] theorem preseed_accHo (s : State) : (preseed s).accHo = s.accHo := rfl
@[simp] theorem preseed_accDi (s : State) : (preseed s).accDi = s.accDi := rfl
@[simp] theorem preseed_accQ (s : State) : (preseed s).accQ = s.accQ := rfl
@[simp] theorem preseed_cont (s : State) : (preseed s).cont = s.cont := rfl
@[simp] theorem preseed_addrw (s : State) : (preseed s).addrw = s.addrw := rfl
@[simp] theorem preseed_txnCount (s : State) : (preseed s).txnCount = s.txnCount := rfl
@[simp] theorem preseed_orphanCount (s : State) : (preseed s).orphanCount = s.orphanCount := rfl
@[simp] theorem preseed_cfg (s : State) : (preseed s).cfg = s.cfg := rfl
@[simp] theorem preseed_cfg0 (s : State) : (preseed s).cfg0 = s.cfg0 := rfl
@[simp] theorem preseed_input (s : State) : (preseed s).input = s.input := rfl
@[simp] theorem preseed_out (s : State) : (preseed s).out = s.out := rfl

/-! ### addPair -/

@[simp] theorem addPair_gapThr (h d : Byte) (s : State) : (addPair h d s).gapThr = s.gapThr := rfl
@[simp] theorem addPair_lastTs (h d : Byte) (s : State) : (addPair h d s).lastTs = s.lastTs := rfl
@[simp] theorem addPair_burstOpen (h d : Byte) (s : State) : (addPair h d s).burstOpen = s.burstOpen := rfl
@[simp] theorem addPair_bStartTs (h d : Byte) (s : State) : (addPair h d s).bStartTs = s.bStartTs := rfl
@[simp] theorem addPair_h2d (h d : Byte) (s : State) : (addPair h d s).h2d = s.h2d ++ [h] := rfl
@[simp] theorem addPair_d2h (h d : Byte) (s : State) : (addPair h d s).d2h = s.d2h ++ [d] := rfl
@[simp] theorem addPair_edge (h d : Byte) (s : State) : (addPair h d s).edge = s.edge := rfl
@[simp] theorem addPair_qthr (h d : Byte) (s : State) : (addPair h d s).qthr = s.qthr := rfl
@[simp] theorem addPair_dummy (h d : Byte) (s : State) : (addPair h d s).dummy = s.dummy := rfl
@[simp] theorem addPair_opcode (h d : Byte) (s : State) : (addPair h d s).opcode = s.opcode := rfl
@[simp] theorem addPair_accHo (h d : Byte) (s : State) : (addPair h d s).accHo = s.accHo := rfl
@[simp] theorem addPair_accDi (h d : Byte) (s : State) : (addPair h d s).accDi = s.accDi := rfl
@[simp] theorem addPair_accQ (h d : Byte) (s : State) : (addPair h d s).accQ = s.accQ := rfl
@[simp] theorem addPair_cont (h d : Byte) (s : State) : (addPair h d s).cont = s.cont := rfl
@[simp] theorem addPair_addrw (h d : Byte) (s : State) : (addPair h d s).addrw = s.addrw := rfl
@[simp] theorem addPair_txnCount (h d : Byte) (s : State) : (addPair h d s).txnCount = s.txnCount := rfl
@[simp] theorem addPair_orphanCount (h d : Byte) (s : State) : (addPair h d s).orphanCount = s.orphanCount := rfl
@[simp] theorem addPair_cfg (h d : Byte) (s : State) : (addPair h d s).cfg = s.cfg := rfl
@[simp] theorem addPair_cfg0 (h d : Byte) (s : State) : (addPair h d s).cfg0 = s.cfg0 := rfl
@[simp] theorem addPair_input (h d : Byte) (s : State) : (addPair h d s).input = s.input := rfl
@[simp] theorem addPair_out (h d : Byte) (s : State) : (addPair h d s).out = s.out := rfl

/-! ### countOrphan -/

@[simp] theorem countOrphan_gapThr (s : State) : (countOrphan s).gapThr = s.gapThr := rfl
@[simp] theorem countOrphan_lastTs (s : State) : (countOrphan s).lastTs = s.lastTs := rfl
@[simp] theorem countOrphan_burstOpen (s : State) : (countOrphan s).burstOpen = s.burstOpen := rfl
@[simp] theorem countOrphan_bStartTs (s : State) : (countOrphan s).bStartTs = s.bStartTs := rfl
@[simp] theorem countOrphan_h2d (s : State) : (countOrphan s).h2d = s.h2d := rfl
@[simp] theorem countOrphan_d2h (s : State) : (countOrphan s).d2h = s.d2h := rfl
@[simp] theorem countOrphan_edge (s : State) : (countOrphan s).edge = s.edge := rfl
@[simp] theorem countOrphan_qthr (s : State) : (countOrphan s).qthr = s.qthr := rfl
@[simp] theorem countOrphan_dummy (s : State) : (countOrphan s).dummy = s.dummy := rfl
@[simp] theorem countOrphan_opcode (s : State) : (countOrphan s).opcode = s.opcode := rfl
@[simp] theorem countOrphan_accHo (s : State) : (countOrphan s).accHo = s.accHo := rfl
@[simp] theorem countOrphan_accDi (s : State) : (countOrphan s).accDi = s.accDi := rfl
@[simp] theorem countOrphan_accQ (s : State) : (countOrphan s).accQ = s.accQ := rfl
@[simp] theorem countOrphan_cont (s : State) : (countOrphan s).cont = s.cont := rfl
@[simp] theorem countOrphan_addrw (s : State) : (countOrphan s).addrw = s.addrw := rfl
@[simp] theorem countOrphan_txnCount (s : State) : (countOrphan s).txnCount = s.txnCount := rfl
@[simp] theorem countOrphan_orphanCount (s : State) : (countOrphan s).orphanCount = s.orphanCount + 1 := rfl
@[simp] theorem countOrphan_cfg (s : State) : (countOrphan s).cfg = s.cfg := rfl
@[simp] theorem countOrphan_cfg0 (s : State) : (countOrphan s).cfg0 = s.cfg0 := rfl
@[simp] theorem countOrphan_input (s : State) : (countOrphan s).input = s.input := rfl
@[simp] theorem countOrphan_out (s : State) : (countOrphan s).out = s.out := rfl

/-! ### shiftLanes -/

@[simp] theorem shiftLanes_gapThr (w : Word) (s : State) : (shiftLanes w s).gapThr = s.gapThr := rfl
@[simp] theorem shiftLanes_lastTs (w : Word) (s : State) : (shiftLanes w s).lastTs = s.lastTs := rfl
@[simp] theorem shiftLanes_burstOpen (w : Word) (s : State) : (shiftLanes w s).burstOpen = s.burstOpen := rfl
@[simp] theorem shiftLanes_bStartTs (w : Word) (s : State) : (shiftLanes w s).bStartTs = s.bStartTs := rfl
@[simp] theorem shiftLanes_h2d (w : Word) (s : State) : (shiftLanes w s).h2d = s.h2d := rfl
@[simp] theorem shiftLanes_d2h (w : Word) (s : State) : (shiftLanes w s).d2h = s.d2h := rfl
@[simp] theorem shiftLanes_edge (w : Word) (s : State) : (shiftLanes w s).edge = s.edge := rfl
@[simp] theorem shiftLanes_qthr (w : Word) (s : State) : (shiftLanes w s).qthr = s.qthr := rfl
@[simp] theorem shiftLanes_dummy (w : Word) (s : State) : (shiftLanes w s).dummy = s.dummy := rfl
@[simp] theorem shiftLanes_opcode (w : Word) (s : State) : (shiftLanes w s).opcode = s.opcode := rfl
@[simp] theorem shiftLanes_accHo (w : Word) (s : State) : (shiftLanes w s).accHo = shiftBit s.accHo (hostOut s.cfg w) := rfl
@[simp] theorem shiftLanes_accDi (w : Word) (s : State) : (shiftLanes w s).accDi = shiftBit s.accDi (deviceIn s.cfg w) := rfl
@[simp] theorem shiftLanes_accQ (w : Word) (s : State) : (shiftLanes w s).accQ = s.accQ := rfl
@[simp] theorem shiftLanes_cont (w : Word) (s : State) : (shiftLanes w s).cont = s.cont := rfl
@[simp] theorem shiftLanes_addrw (w : Word) (s : State) : (shiftLanes w s).addrw = s.addrw := rfl
@[simp] theorem shiftLanes_txnCount (w : Word) (s : State) : (shiftLanes w s).txnCount = s.txnCount := rfl
@[simp] theorem shiftLanes_orphanCount (w : Word) (s : State) : (shiftLanes w s).orphanCount = s.orphanCount := rfl
@[simp] theorem shiftLanes_cfg (w : Word) (s : State) : (shiftLanes w s).cfg = s.cfg := rfl
@[simp] theorem shiftLanes_cfg0 (w : Word) (s : State) : (shiftLanes w s).cfg0 = s.cfg0 := rfl
@[simp] theorem shiftLanes_input (w : Word) (s : State) : (shiftLanes w s).input = s.input := rfl
@[simp] theorem shiftLanes_out (w : Word) (s : State) : (shiftLanes w s).out = s.out := rfl

/-! ### clearLanes -/

@[simp] theorem clearLanes_gapThr (s : State) : (clearLanes s).gapThr = s.gapThr := rfl
@[simp] theorem clearLanes_lastTs (s : State) : (clearLanes s).lastTs = s.lastTs := rfl
@[simp] theorem clearLanes_burstOpen (s : State) : (clearLanes s).burstOpen = s.burstOpen := rfl
@[simp] theorem clearLanes_bStartTs (s : State) : (clearLanes s).bStartTs = s.bStartTs := rfl
@[simp] theorem clearLanes_h2d (s : State) : (clearLanes s).h2d = s.h2d := rfl
@[simp] theorem clearLanes_d2h (s : State) : (clearLanes s).d2h = s.d2h := rfl
@[simp] theorem clearLanes_edge (s : State) : (clearLanes s).edge = s.edge := rfl
@[simp] theorem clearLanes_qthr (s : State) : (clearLanes s).qthr = s.qthr := rfl
@[simp] theorem clearLanes_dummy (s : State) : (clearLanes s).dummy = s.dummy := rfl
@[simp] theorem clearLanes_opcode (s : State) : (clearLanes s).opcode = s.opcode := rfl
@[simp] theorem clearLanes_accHo (s : State) : (clearLanes s).accHo = 0 := rfl
@[simp] theorem clearLanes_accDi (s : State) : (clearLanes s).accDi = 0 := rfl
@[simp] theorem clearLanes_accQ (s : State) : (clearLanes s).accQ = s.accQ := rfl
@[simp] theorem clearLanes_cont (s : State) : (clearLanes s).cont = s.cont := rfl
@[simp] theorem clearLanes_addrw (s : State) : (clearLanes s).addrw = s.addrw := rfl
@[simp] theorem clearLanes_txnCount (s : State) : (clearLanes s).txnCount = s.txnCount := rfl
@[simp] theorem clearLanes_orphanCount (s : State) : (clearLanes s).orphanCount = s.orphanCount := rfl
@[simp] theorem clearLanes_cfg (s : State) : (clearLanes s).cfg = s.cfg := rfl
@[simp] theorem clearLanes_cfg0 (s : State) : (clearLanes s).cfg0 = s.cfg0 := rfl
@[simp] theorem clearLanes_input (s : State) : (clearLanes s).input = s.input := rfl
@[simp] theorem clearLanes_out (s : State) : (clearLanes s).out = s.out := rfl

/-! ### captureOpcode -/

@[simp] theorem captureOpcode_gapThr (b : Byte) (s : State) : (captureOpcode b s).gapThr = s.gapThr := rfl
@[simp] theorem captureOpcode_lastTs (b : Byte) (s : State) : (captureOpcode b s).lastTs = s.lastTs := rfl
@[simp] theorem captureOpcode_burstOpen (b : Byte) (s : State) : (captureOpcode b s).burstOpen = s.burstOpen := rfl
@[simp] theorem captureOpcode_bStartTs (b : Byte) (s : State) : (captureOpcode b s).bStartTs = s.bStartTs := rfl
@[simp] theorem captureOpcode_h2d (b : Byte) (s : State) : (captureOpcode b s).h2d = s.h2d := rfl
@[simp] theorem captureOpcode_d2h (b : Byte) (s : State) : (captureOpcode b s).d2h = s.d2h := rfl
@[simp] theorem captureOpcode_edge (b : Byte) (s : State) : (captureOpcode b s).edge = s.edge := rfl
@[simp] theorem captureOpcode_qthr (b : Byte) (s : State) : (captureOpcode b s).qthr = s.qthr := rfl
@[simp] theorem captureOpcode_dummy (b : Byte) (s : State) : (captureOpcode b s).dummy = s.dummy := rfl
@[simp] theorem captureOpcode_opcode (b : Byte) (s : State) : (captureOpcode b s).opcode = some b := rfl
@[simp] theorem captureOpcode_accHo (b : Byte) (s : State) : (captureOpcode b s).accHo = s.accHo := rfl
@[simp] theorem captureOpcode_accDi (b : Byte) (s : State) : (captureOpcode b s).accDi = s.accDi := rfl
@[simp] theorem captureOpcode_accQ (b : Byte) (s : State) : (captureOpcode b s).accQ = s.accQ := rfl
@[simp] theorem captureOpcode_cont (b : Byte) (s : State) : (captureOpcode b s).cont = s.cont := rfl
@[simp] theorem captureOpcode_addrw (b : Byte) (s : State) : (captureOpcode b s).addrw = s.addrw := rfl
@[simp] theorem captureOpcode_txnCount (b : Byte) (s : State) : (captureOpcode b s).txnCount = s.txnCount := rfl
@[simp] theorem captureOpcode_orphanCount (b : Byte) (s : State) : (captureOpcode b s).orphanCount = s.orphanCount := rfl
@[simp] theorem captureOpcode_cfg (b : Byte) (s : State) : (captureOpcode b s).cfg = s.cfg := rfl
@[simp] theorem captureOpcode_cfg0 (b : Byte) (s : State) : (captureOpcode b s).cfg0 = s.cfg0 := rfl
@[simp] theorem captureOpcode_input (b : Byte) (s : State) : (captureOpcode b s).input = s.input := rfl
@[simp] theorem captureOpcode_out (b : Byte) (s : State) : (captureOpcode b s).out = s.out := rfl

/-! ### switchToQuad -/

@[simp] theorem switchToQuad_gapThr (d : Nat) (s : State) : (switchToQuad d s).gapThr = s.gapThr := rfl
@[simp] theorem switchToQuad_lastTs (d : Nat) (s : State) : (switchToQuad d s).lastTs = s.lastTs := rfl
@[simp] theorem switchToQuad_burstOpen (d : Nat) (s : State) : (switchToQuad d s).burstOpen = s.burstOpen := rfl
@[simp] theorem switchToQuad_bStartTs (d : Nat) (s : State) : (switchToQuad d s).bStartTs = s.bStartTs := rfl
@[simp] theorem switchToQuad_h2d (d : Nat) (s : State) : (switchToQuad d s).h2d = s.h2d := rfl
@[simp] theorem switchToQuad_d2h (d : Nat) (s : State) : (switchToQuad d s).d2h = s.d2h := rfl
@[simp] theorem switchToQuad_edge (d : Nat) (s : State) : (switchToQuad d s).edge = s.edge := rfl
@[simp] theorem switchToQuad_qthr (d : Nat) (s : State) : (switchToQuad d s).qthr = some quadStart := rfl
@[simp] theorem switchToQuad_dummy (d : Nat) (s : State) : (switchToQuad d s).dummy = d := rfl
@[simp] theorem switchToQuad_opcode (d : Nat) (s : State) : (switchToQuad d s).opcode = s.opcode := rfl
@[simp] theorem switchToQuad_accHo (d : Nat) (s : State) : (switchToQuad d s).accHo = s.accHo := rfl
@[simp] theorem switchToQuad_accDi (d : Nat) (s : State) : (switchToQuad d s).accDi = s.accDi := rfl
@[simp] theorem switchToQuad_accQ (d : Nat) (s : State) : (switchToQuad d s).accQ = s.accQ := rfl
@[simp] theorem switchToQuad_cont (d : Nat) (s : State) : (switchToQuad d s).cont = s.cont := rfl
@[simp] theorem switchToQuad_addrw (d : Nat) (s : State) : (switchToQuad d s).addrw = s.addrw := rfl
@[simp] theorem switchToQuad_txnCount (d : Nat) (s : State) : (switchToQuad d s).txnCount = s.txnCount := rfl
@[simp] theorem switchToQuad_orphanCount (d : Nat) (s : State) : (switchToQuad d s).orphanCount = s.orphanCount := rfl
@[simp] theorem switchToQuad_cfg (d : Nat) (s : State) : (switchToQuad d s).cfg = s.cfg := rfl
@[simp] theorem switchToQuad_cfg0 (d : Nat) (s : State) : (switchToQuad d s).cfg0 = s.cfg0 := rfl
@[simp] theorem switchToQuad_input (d : Nat) (s : State) : (switchToQuad d s).input = s.input := rfl
@[simp] theorem switchToQuad_out (d : Nat) (s : State) : (switchToQuad d s).out = s.out := rfl

/-! ### shiftNibble -/

@[simp] theorem shiftNibble_gapThr (w : Word) (s : State) : (shiftNibble w s).gapThr = s.gapThr := rfl
@[simp] theorem shiftNibble_lastTs (w : Word) (s : State) : (shiftNibble w s).lastTs = s.lastTs := rfl
@[simp] theorem shiftNibble_burstOpen (w : Word) (s : State) : (shiftNibble w s).burstOpen = s.burstOpen := rfl
@[simp] theorem shiftNibble_bStartTs (w : Word) (s : State) : (shiftNibble w s).bStartTs = s.bStartTs := rfl
@[simp] theorem shiftNibble_h2d (w : Word) (s : State) : (shiftNibble w s).h2d = s.h2d := rfl
@[simp] theorem shiftNibble_d2h (w : Word) (s : State) : (shiftNibble w s).d2h = s.d2h := rfl
@[simp] theorem shiftNibble_edge (w : Word) (s : State) : (shiftNibble w s).edge = s.edge := rfl
@[simp] theorem shiftNibble_qthr (w : Word) (s : State) : (shiftNibble w s).qthr = s.qthr := rfl
@[simp] theorem shiftNibble_dummy (w : Word) (s : State) : (shiftNibble w s).dummy = s.dummy := rfl
@[simp] theorem shiftNibble_opcode (w : Word) (s : State) : (shiftNibble w s).opcode = s.opcode := rfl
@[simp] theorem shiftNibble_accHo (w : Word) (s : State) : (shiftNibble w s).accHo = s.accHo := rfl
@[simp] theorem shiftNibble_accDi (w : Word) (s : State) : (shiftNibble w s).accDi = s.accDi := rfl
@[simp] theorem shiftNibble_accQ (w : Word) (s : State) : (shiftNibble w s).accQ = shiftNib s.accQ (nibble s.cfg w) := rfl
@[simp] theorem shiftNibble_cont (w : Word) (s : State) : (shiftNibble w s).cont = s.cont := rfl
@[simp] theorem shiftNibble_addrw (w : Word) (s : State) : (shiftNibble w s).addrw = s.addrw := rfl
@[simp] theorem shiftNibble_txnCount (w : Word) (s : State) : (shiftNibble w s).txnCount = s.txnCount := rfl
@[simp] theorem shiftNibble_orphanCount (w : Word) (s : State) : (shiftNibble w s).orphanCount = s.orphanCount := rfl
@[simp] theorem shiftNibble_cfg (w : Word) (s : State) : (shiftNibble w s).cfg = s.cfg := rfl
@[simp] theorem shiftNibble_cfg0 (w : Word) (s : State) : (shiftNibble w s).cfg0 = s.cfg0 := rfl
@[simp] theorem shiftNibble_input (w : Word) (s : State) : (shiftNibble w s).input = s.input := rfl
@[simp] theorem shiftNibble_out (w : Word) (s : State) : (shiftNibble w s).out = s.out := rfl

/-! ### clearNibble -/

@[simp] theorem clearNibble_gapThr (s : State) : (clearNibble s).gapThr = s.gapThr := rfl
@[simp] theorem clearNibble_lastTs (s : State) : (clearNibble s).lastTs = s.lastTs := rfl
@[simp] theorem clearNibble_burstOpen (s : State) : (clearNibble s).burstOpen = s.burstOpen := rfl
@[simp] theorem clearNibble_bStartTs (s : State) : (clearNibble s).bStartTs = s.bStartTs := rfl
@[simp] theorem clearNibble_h2d (s : State) : (clearNibble s).h2d = s.h2d := rfl
@[simp] theorem clearNibble_d2h (s : State) : (clearNibble s).d2h = s.d2h := rfl
@[simp] theorem clearNibble_edge (s : State) : (clearNibble s).edge = s.edge := rfl
@[simp] theorem clearNibble_qthr (s : State) : (clearNibble s).qthr = s.qthr := rfl
@[simp] theorem clearNibble_dummy (s : State) : (clearNibble s).dummy = s.dummy := rfl
@[simp] theorem clearNibble_opcode (s : State) : (clearNibble s).opcode = s.opcode := rfl
@[simp] theorem clearNibble_accHo (s : State) : (clearNibble s).accHo = s.accHo := rfl
@[simp] theorem clearNibble_accDi (s : State) : (clearNibble s).accDi = s.accDi := rfl
@[simp] theorem clearNibble_accQ (s : State) : (clearNibble s).accQ = 0 := rfl
@[simp] theorem clearNibble_cont (s : State) : (clearNibble s).cont = s.cont := rfl
@[simp] theorem clearNibble_addrw (s : State) : (clearNibble s).addrw = s.addrw := rfl
@[simp] theorem clearNibble_txnCount (s : State) : (clearNibble s).txnCount = s.txnCount := rfl
@[simp] theorem clearNibble_orphanCount (s : State) : (clearNibble s).orphanCount = s.orphanCount := rfl
@[simp] theorem clearNibble_cfg (s : State) : (clearNibble s).cfg = s.cfg := rfl
@[simp] theorem clearNibble_cfg0 (s : State) : (clearNibble s).cfg0 = s.cfg0 := rfl
@[simp] theorem clearNibble_input (s : State) : (clearNibble s).input = s.input := rfl
@[simp] theorem clearNibble_out (s : State) : (clearNibble s).out = s.out := rfl

/-! ### setCont -/

@[simp] theorem setCont_gapThr (b : Bool) (s : State) : (setCont b s).gapThr = s.gapThr := rfl
@[simp] theorem setCont_lastTs (b : Bool) (s : State) : (setCont b s).lastTs = s.lastTs := rfl
@[simp] theorem setCont_burstOpen (b : Bool) (s : State) : (setCont b s).burstOpen = s.burstOpen := rfl
@[simp] theorem setCont_bStartTs (b : Bool) (s : State) : (setCont b s).bStartTs = s.bStartTs := rfl
@[simp] theorem setCont_h2d (b : Bool) (s : State) : (setCont b s).h2d = s.h2d := rfl
@[simp] theorem setCont_d2h (b : Bool) (s : State) : (setCont b s).d2h = s.d2h := rfl
@[simp] theorem setCont_edge (b : Bool) (s : State) : (setCont b s).edge = s.edge := rfl
@[simp] theorem setCont_qthr (b : Bool) (s : State) : (setCont b s).qthr = s.qthr := rfl
@[simp] theorem setCont_dummy (b : Bool) (s : State) : (setCont b s).dummy = s.dummy := rfl
@[simp] theorem setCont_opcode (b : Bool) (s : State) : (setCont b s).opcode = s.opcode := rfl
@[simp] theorem setCont_accHo (b : Bool) (s : State) : (setCont b s).accHo = s.accHo := rfl
@[simp] theorem setCont_accDi (b : Bool) (s : State) : (setCont b s).accDi = s.accDi := rfl
@[simp] theorem setCont_accQ (b : Bool) (s : State) : (setCont b s).accQ = s.accQ := rfl
@[simp] theorem setCont_cont (b : Bool) (s : State) : (setCont b s).cont = b := rfl
@[simp] theorem setCont_addrw (b : Bool) (s : State) : (setCont b s).addrw = s.addrw := rfl
@[simp] theorem setCont_txnCount (b : Bool) (s : State) : (setCont b s).txnCount = s.txnCount := rfl
@[simp] theorem setCont_orphanCount (b : Bool) (s : State) : (setCont b s).orphanCount = s.orphanCount := rfl
@[simp] theorem setCont_cfg (b : Bool) (s : State) : (setCont b s).cfg = s.cfg := rfl
@[simp] theorem setCont_cfg0 (b : Bool) (s : State) : (setCont b s).cfg0 = s.cfg0 := rfl
@[simp] theorem setCont_input (b : Bool) (s : State) : (setCont b s).input = s.input := rfl
@[simp] theorem setCont_out (b : Bool) (s : State) : (setCont b s).out = s.out := rfl

/-! ### countEdge -/

@[simp] theorem countEdge_gapThr (s : State) : (countEdge s).gapThr = s.gapThr := rfl
@[simp] theorem countEdge_lastTs (s : State) : (countEdge s).lastTs = s.lastTs := rfl
@[simp] theorem countEdge_burstOpen (s : State) : (countEdge s).burstOpen = s.burstOpen := rfl
@[simp] theorem countEdge_bStartTs (s : State) : (countEdge s).bStartTs = s.bStartTs := rfl
@[simp] theorem countEdge_h2d (s : State) : (countEdge s).h2d = s.h2d := rfl
@[simp] theorem countEdge_d2h (s : State) : (countEdge s).d2h = s.d2h := rfl
@[simp] theorem countEdge_edge (s : State) : (countEdge s).edge = s.edge + 1 := rfl
@[simp] theorem countEdge_qthr (s : State) : (countEdge s).qthr = s.qthr := rfl
@[simp] theorem countEdge_dummy (s : State) : (countEdge s).dummy = s.dummy := rfl
@[simp] theorem countEdge_opcode (s : State) : (countEdge s).opcode = s.opcode := rfl
@[simp] theorem countEdge_accHo (s : State) : (countEdge s).accHo = s.accHo := rfl
@[simp] theorem countEdge_accDi (s : State) : (countEdge s).accDi = s.accDi := rfl
@[simp] theorem countEdge_accQ (s : State) : (countEdge s).accQ = s.accQ := rfl
@[simp] theorem countEdge_cont (s : State) : (countEdge s).cont = s.cont := rfl
@[simp] theorem countEdge_addrw (s : State) : (countEdge s).addrw = s.addrw := rfl
@[simp] theorem countEdge_txnCount (s : State) : (countEdge s).txnCount = s.txnCount := rfl
@[simp] theorem countEdge_orphanCount (s : State) : (countEdge s).orphanCount = s.orphanCount := rfl
@[simp] theorem countEdge_cfg (s : State) : (countEdge s).cfg = s.cfg := rfl
@[simp] theorem countEdge_cfg0 (s : State) : (countEdge s).cfg0 = s.cfg0 := rfl
@[simp] theorem countEdge_input (s : State) : (countEdge s).input = s.input := rfl
@[simp] theorem countEdge_out (s : State) : (countEdge s).out = s.out := rfl

/-! ### setResult -/

@[simp] theorem setResult_gapThr (r : Option Record) (aw : Nat) (s : State) : (setResult r aw s).gapThr = s.gapThr := rfl
@[simp] theorem setResult_lastTs (r : Option Record) (aw : Nat) (s : State) : (setResult r aw s).lastTs = s.lastTs := rfl
@[simp] theorem setResult_burstOpen (r : Option Record) (aw : Nat) (s : State) : (setResult r aw s).burstOpen = s.burstOpen := rfl
@[simp] theorem setResult_bStartTs (r : Option Record) (aw : Nat) (s : State) : (setResult r aw s).bStartTs = s.bStartTs := rfl
@[simp] theorem setResult_h2d (r : Option Record) (aw : Nat) (s : State) : (setResult r aw s).h2d = s.h2d := rfl
@[simp] theorem setResult_d2h (r : Option Record) (aw : Nat) (s : State) : (setResult r aw s).d2h = s.d2h := rfl
@[simp] theorem setResult_edge (r : Option Record) (aw : Nat) (s : State) : (setResult r aw s).edge = s.edge := rfl
@[simp] theorem setResult_qthr (r : Option Record) (aw : Nat) (s : State) : (setResult r aw s).qthr = s.qthr := rfl
@[simp] theorem setResult_dummy (r : Option Record) (aw : Nat) (s : State) : (setResult r aw s).dummy = s.dummy := rfl
@[simp] theorem setResult_opcode (r : Option Record) (aw : Nat) (s : State) : (setResult r aw s).opcode = s.opcode := rfl
@[simp] theorem setResult_accHo (r : Option Record) (aw : Nat) (s : State) : (setResult r aw s).accHo = s.accHo := rfl
@[simp] theorem setResult_accDi (r : Option Record) (aw : Nat) (s : State) : (setResult r aw s).accDi = s.accDi := rfl
@[simp] theorem setResult_accQ (r : Option Record) (aw : Nat) (s : State) : (setResult r aw s).accQ = s.accQ := rfl
@[simp] theorem setResult_cont (r : Option Record) (aw : Nat) (s : State) : (setResult r aw s).cont = s.cont := rfl
@[simp] theorem setResult_addrw (r : Option Record) (aw : Nat) (s : State) : (setResult r aw s).addrw = aw := rfl
@[simp] theorem setResult_txnCount (r : Option Record) (aw : Nat) (s : State) : (setResult r aw s).txnCount = s.txnCount := rfl
@[simp] theorem setResult_orphanCount (r : Option Record) (aw : Nat) (s : State) : (setResult r aw s).orphanCount = s.orphanCount := rfl
@[simp] theorem setResult_cfg (r : Option Record) (aw : Nat) (s : State) : (setResult r aw s).cfg = s.cfg := rfl
@[simp] theorem setResult_cfg0 (r : Option Record) (aw : Nat) (s : State) : (setResult r aw s).cfg0 = s.cfg0 := rfl
@[simp] theorem setResult_input (r : Option Record) (aw : Nat) (s : State) : (setResult r aw s).input = s.input := rfl
@[simp] theorem setResult_out (r : Option Record) (aw : Nat) (s : State) : (setResult r aw s).out = r := rfl

/-! ### dropSample -/

@[simp] theorem dropSample_gapThr (s : State) : (dropSample s).gapThr = s.gapThr := rfl
@[simp] theorem dropSample_lastTs (s : State) : (dropSample s).lastTs = s.lastTs := rfl
@[simp] theorem dropSample_burstOpen (s : State) : (dropSample s).burstOpen = s.burstOpen := rfl
@[simp] theorem dropSample_bStartTs (s : State) : (dropSample s).bStartTs = s.bStartTs := rfl
@[simp] theorem dropSample_h2d (s : State) : (dropSample s).h2d = s.h2d := rfl
@[simp] theorem dropSample_d2h (s : State) : (dropSample s).d2h = s.d2h := rfl
@[simp] theorem dropSample_edge (s : State) : (dropSample s).edge = s.edge := rfl
@[simp] theorem dropSample_qthr (s : State) : (dropSample s).qthr = s.qthr := rfl
@[simp] theorem dropSample_dummy (s : State) : (dropSample s).dummy = s.dummy := rfl
@[simp] theorem dropSample_opcode (s : State) : (dropSample s).opcode = s.opcode := rfl
@[simp] theorem dropSample_accHo (s : State) : (dropSample s).accHo = s.accHo := rfl
@[simp] theorem dropSample_accDi (s : State) : (dropSample s).accDi = s.accDi := rfl
@[simp] theorem dropSample_accQ (s : State) : (dropSample s).accQ = s.accQ := rfl
@[simp] theorem dropSample_cont (s : State) : (dropSample s).cont = s.cont := rfl
@[simp] theorem dropSample_addrw (s : State) : (dropSample s).addrw = s.addrw := rfl
@[simp] theorem dropSample_txnCount (s : State) : (dropSample s).txnCount = s.txnCount := rfl
@[simp] theorem dropSample_orphanCount (s : State) : (dropSample s).orphanCount = s.orphanCount := rfl
@[simp] theorem dropSample_cfg (s : State) : (dropSample s).cfg = s.cfg := rfl
@[simp] theorem dropSample_cfg0 (s : State) : (dropSample s).cfg0 = s.cfg0 := rfl
@[simp] theorem dropSample_input (s : State) : (dropSample s).input = s.input.drop 1 := rfl
@[simp] theorem dropSample_out (s : State) : (dropSample s).out = s.out := rfl

/-! ### State.deliver -/

@[simp] theorem deliver_gapThr (smp : Sample) (s : State) : (State.deliver smp s).gapThr = s.gapThr := rfl
@[simp] theorem deliver_lastTs (smp : Sample) (s : State) : (State.deliver smp s).lastTs = s.lastTs := rfl
@[simp] theorem deliver_burstOpen (smp : Sample) (s : State) : (State.deliver smp s).burstOpen = s.burstOpen := rfl
@[simp] theorem deliver_bStartTs (smp : Sample) (s : State) : (State.deliver smp s).bStartTs = s.bStartTs := rfl
@[simp] theorem deliver_h2d (smp : Sample) (s : State) : (State.deliver smp s).h2d = s.h2d := rfl
@[simp] theorem deliver_d2h (smp : Sample) (s : State) : (State.deliver smp s).d2h = s.d2h := rfl
@[simp] theorem deliver_edge (smp : Sample) (s : State) : (State.deliver smp s).edge = s.edge := rfl
@[simp] theorem deliver_qthr (smp : Sample) (s : State) : (State.deliver smp s).qthr = s.qthr := rfl
@[simp] theorem deliver_dummy (smp : Sample) (s : State) : (State.deliver smp s).dummy = s.dummy := rfl
@[simp] theorem deliver_opcode (smp : Sample) (s : State) : (State.deliver smp s).opcode = s.opcode := rfl
@[simp] theorem deliver_accHo (smp : Sample) (s : State) : (State.deliver smp s).accHo = s.accHo := rfl
@[simp] theorem deliver_accDi (smp : Sample) (s : State) : (State.deliver smp s).accDi = s.accDi := rfl
@[simp] theorem deliver_accQ (smp : Sample) (s : State) : (State.deliver smp s).accQ = s.accQ := rfl
@[simp] theorem deliver_cont (smp : Sample) (s : State) : (State.deliver smp s).cont = s.cont := rfl
@[simp] theorem deliver_addrw (smp : Sample) (s : State) : (State.deliver smp s).addrw = s.addrw := rfl
@[simp] theorem deliver_txnCount (smp : Sample) (s : State) : (State.deliver smp s).txnCount = s.txnCount := rfl
@[simp] theorem deliver_orphanCount (smp : Sample) (s : State) : (State.deliver smp s).orphanCount = s.orphanCount := rfl
@[simp] theorem deliver_cfg (smp : Sample) (s : State) : (State.deliver smp s).cfg = s.cfg := rfl
@[simp] theorem deliver_cfg0 (smp : Sample) (s : State) : (State.deliver smp s).cfg0 = s.cfg0 := rfl
@[simp] theorem deliver_input (smp : Sample) (s : State) : (State.deliver smp s).input = s.input ++ [smp] := rfl
@[simp] theorem deliver_out (smp : Sample) (s : State) : (State.deliver smp s).out = s.out := rfl

/-! ### push, which writes one of two places -/

@[simp] theorem push_gapThr (h d : Byte) (s : State) : (push h d s).gapThr = s.gapThr := by
  unfold push; split <;> rfl
@[simp] theorem push_lastTs (h d : Byte) (s : State) : (push h d s).lastTs = s.lastTs := by
  unfold push; split <;> rfl
@[simp] theorem push_burstOpen (h d : Byte) (s : State) : (push h d s).burstOpen = s.burstOpen := by
  unfold push; split <;> rfl
@[simp] theorem push_bStartTs (h d : Byte) (s : State) : (push h d s).bStartTs = s.bStartTs := by
  unfold push; split <;> rfl
theorem push_h2d (h d : Byte) (s : State) : (push h d s).h2d = if s.burstOpen then s.h2d ++ [h] else s.h2d := by
  unfold push; split <;> rfl
theorem push_d2h (h d : Byte) (s : State) : (push h d s).d2h = if s.burstOpen then s.d2h ++ [d] else s.d2h := by
  unfold push; split <;> rfl
@[simp] theorem push_edge (h d : Byte) (s : State) : (push h d s).edge = s.edge := by
  unfold push; split <;> rfl
@[simp] theorem push_qthr (h d : Byte) (s : State) : (push h d s).qthr = s.qthr := by
  unfold push; split <;> rfl
@[simp] theorem push_dummy (h d : Byte) (s : State) : (push h d s).dummy = s.dummy := by
  unfold push; split <;> rfl
@[simp] theorem push_opcode (h d : Byte) (s : State) : (push h d s).opcode = s.opcode := by
  unfold push; split <;> rfl
@[simp] theorem push_accHo (h d : Byte) (s : State) : (push h d s).accHo = s.accHo := by
  unfold push; split <;> rfl
@[simp] theorem push_accDi (h d : Byte) (s : State) : (push h d s).accDi = s.accDi := by
  unfold push; split <;> rfl
@[simp] theorem push_accQ (h d : Byte) (s : State) : (push h d s).accQ = s.accQ := by
  unfold push; split <;> rfl
@[simp] theorem push_cont (h d : Byte) (s : State) : (push h d s).cont = s.cont := by
  unfold push; split <;> rfl
@[simp] theorem push_addrw (h d : Byte) (s : State) : (push h d s).addrw = s.addrw := by
  unfold push; split <;> rfl
@[simp] theorem push_txnCount (h d : Byte) (s : State) : (push h d s).txnCount = s.txnCount := by
  unfold push; split <;> rfl
theorem push_orphanCount (h d : Byte) (s : State) :
    (push h d s).orphanCount = if s.burstOpen then s.orphanCount else s.orphanCount + 1 := by
  unfold push; split <;> rfl
@[simp] theorem push_cfg (h d : Byte) (s : State) : (push h d s).cfg = s.cfg := by
  unfold push; split <;> rfl
@[simp] theorem push_cfg0 (h d : Byte) (s : State) : (push h d s).cfg0 = s.cfg0 := by
  unfold push; split <;> rfl
@[simp] theorem push_input (h d : Byte) (s : State) : (push h d s).input = s.input := by
  unfold push; split <;> rfl
@[simp] theorem push_out (h d : Byte) (s : State) : (push h d s).out = s.out := by
  unfold push; split <;> rfl

/-! ### classifyBurst -/

@[simp] theorem classifyBurst_gapThr (p : Nat) (s : State) : (classifyBurst p s).gapThr = s.gapThr := rfl
@[simp] theorem classifyBurst_lastTs (p : Nat) (s : State) : (classifyBurst p s).lastTs = s.lastTs := rfl
@[simp] theorem classifyBurst_burstOpen (p : Nat) (s : State) : (classifyBurst p s).burstOpen = s.burstOpen := rfl
@[simp] theorem classifyBurst_bStartTs (p : Nat) (s : State) : (classifyBurst p s).bStartTs = s.bStartTs := rfl
@[simp] theorem classifyBurst_h2d (p : Nat) (s : State) : (classifyBurst p s).h2d = s.h2d := rfl
@[simp] theorem classifyBurst_d2h (p : Nat) (s : State) : (classifyBurst p s).d2h = s.d2h := rfl
@[simp] theorem classifyBurst_edge (p : Nat) (s : State) : (classifyBurst p s).edge = s.edge := rfl
@[simp] theorem classifyBurst_qthr (p : Nat) (s : State) : (classifyBurst p s).qthr = s.qthr := rfl
@[simp] theorem classifyBurst_dummy (p : Nat) (s : State) : (classifyBurst p s).dummy = s.dummy := rfl
@[simp] theorem classifyBurst_opcode (p : Nat) (s : State) : (classifyBurst p s).opcode = s.opcode := rfl
@[simp] theorem classifyBurst_accHo (p : Nat) (s : State) : (classifyBurst p s).accHo = s.accHo := rfl
@[simp] theorem classifyBurst_accDi (p : Nat) (s : State) : (classifyBurst p s).accDi = s.accDi := rfl
@[simp] theorem classifyBurst_accQ (p : Nat) (s : State) : (classifyBurst p s).accQ = s.accQ := rfl
@[simp] theorem classifyBurst_cont (p : Nat) (s : State) : (classifyBurst p s).cont = s.cont := rfl
theorem classifyBurst_addrw (p : Nat) (s : State) :
    (classifyBurst p s).addrw = (classify s.cfg s.addrw s.h2d s.d2h s.bStartTs p).2 := rfl
@[simp] theorem classifyBurst_txnCount (p : Nat) (s : State) : (classifyBurst p s).txnCount = s.txnCount := rfl
@[simp] theorem classifyBurst_orphanCount (p : Nat) (s : State) : (classifyBurst p s).orphanCount = s.orphanCount := rfl
@[simp] theorem classifyBurst_cfg (p : Nat) (s : State) : (classifyBurst p s).cfg = s.cfg := rfl
@[simp] theorem classifyBurst_cfg0 (p : Nat) (s : State) : (classifyBurst p s).cfg0 = s.cfg0 := rfl
@[simp] theorem classifyBurst_input (p : Nat) (s : State) : (classifyBurst p s).input = s.input := rfl
theorem classifyBurst_out (p : Nat) (s : State) :
    (classifyBurst p s).out = (classify s.cfg s.addrw s.h2d s.d2h s.bStartTs p).1 := rfl

/-! ### The state after reset -/

@[simp] theorem resetWith_gapThr (c : Config) : (State.resetWith c).gapThr = c.gapInit := rfl
@[simp] theorem resetWith_lastTs (c : Config) : (State.resetWith c).lastTs = none := rfl
@[simp] theorem resetWith_burstOpen (c : Config) : (State.resetWith c).burstOpen = false := rfl
@[simp] theorem resetWith_bStartTs (c : Config) : (State.resetWith c).bStartTs = 0 := rfl
@[simp] theorem resetWith_h2d (c : Config) : (State.resetWith c).h2d = [] := rfl
@[simp] theorem resetWith_d2h (c : Config) : (State.resetWith c).d2h = [] := rfl
@[simp] theorem resetWith_edge (c : Config) : (State.resetWith c).edge = 0 := rfl
@[simp] theorem resetWith_qthr (c : Config) : (State.resetWith c).qthr = none := rfl
@[simp] theorem resetWith_dummy (c : Config) : (State.resetWith c).dummy = 0 := rfl
@[simp] theorem resetWith_opcode (c : Config) : (State.resetWith c).opcode = none := rfl
@[simp] theorem resetWith_accHo (c : Config) : (State.resetWith c).accHo = 0 := rfl
@[simp] theorem resetWith_accDi (c : Config) : (State.resetWith c).accDi = 0 := rfl
@[simp] theorem resetWith_accQ (c : Config) : (State.resetWith c).accQ = 0 := rfl
@[simp] theorem resetWith_cont (c : Config) : (State.resetWith c).cont = false := rfl
@[simp] theorem resetWith_addrw (c : Config) : (State.resetWith c).addrw = c.initAddrWidth := rfl
@[simp] theorem resetWith_txnCount (c : Config) : (State.resetWith c).txnCount = 0 := rfl
@[simp] theorem resetWith_orphanCount (c : Config) : (State.resetWith c).orphanCount = 0 := rfl
@[simp] theorem resetWith_cfg (c : Config) : (State.resetWith c).cfg = c := rfl
@[simp] theorem resetWith_cfg0 (c : Config) : (State.resetWith c).cfg0 = c := rfl
@[simp] theorem resetWith_input (c : Config) : (State.resetWith c).input = [] := rfl
@[simp] theorem resetWith_out (c : Config) : (State.resetWith c).out = none := rfl

end Sys2Proof.Machine
end

