-- ==== Sys2Proof/Laws/Ops.lean ====
section
/-! SUPPORT. One lemma for each shared operation that says once everything it can do; proofs cite these and do not
unfold the operation. -/

namespace Sys2Proof.Machine

/-! ### Sequencing -/

@[simp] theorem andThen_next (s : State) (f : State → Host.Outcome State Fault Refusal) :
    andThen (.next s) f = f s := rfl

@[simp] theorem andThen_refused (r : Refusal) (f : State → Host.Outcome State Fault Refusal) :
    andThen (.refused r) f = .refused r := rfl

theorem andThen_eq_next {o : Host.Outcome State Fault Refusal} {f : State → Host.Outcome State Fault Refusal}
    {s' : State} : andThen o f = .next s' ↔ ∃ s, o = .next s ∧ f s = .next s' := by
  cases o <;> simp [andThen]

theorem andThen_eq_refused {o : Host.Outcome State Fault Refusal} {f : State → Host.Outcome State Fault Refusal}
    {r : Refusal} : andThen o f = .refused r ↔ o = .refused r ∨ ∃ s, o = .next s ∧ f s = .refused r := by
  cases o <;> simp [andThen]

/-! ### Refusals -/

theorem runRefusal_eq_none {s : State} : runRefusal s = none ↔ admitted s.cfg = true ∧ s.cfg = s.cfg0 := by
  unfold runRefusal
  by_cases h : s.cfg = s.cfg0
  · by_cases h0 : admitted s.cfg0 = true <;> simp [h, h0]
  · by_cases h0 : admitted s.cfg0 = true <;> simp [h, h0]

theorem tsFits_iff {c : Config} {t : Nat} : tsFits c t = true ↔ ∀ k, c.tsBits = some k → t < 2 ^ k := by
  unfold tsFits; split <;> simp_all

theorem tsInOrder_iff {s : State} {t : Nat} : tsInOrder s t = true ↔ ∀ p, s.lastTs = some p → p ≤ t := by
  unfold tsInOrder; split <;> simp_all

/-- No refusal precedes a sample's effect exactly where the spec gives the sample a meaning. -/
theorem sampleRefusal_eq_none {s : State} {t : Nat} : sampleRefusal s t = none ↔ Accepts s t := by
  unfold sampleRefusal
  constructor
  · intro h
    split at h
    · cases h
    · rename_i hr
      obtain ⟨ha, hc⟩ := runRefusal_eq_none.1 hr
      split at h <;> rename_i hf
      · split at h <;> rename_i ho
        · exact ⟨ha, hc, tsFits_iff.1 hf, tsInOrder_iff.1 ho⟩
        · cases h
      · cases h
  · rintro ⟨ha, hc, hf, ho⟩
    simp [runRefusal_eq_none.2 ⟨ha, hc⟩, tsFits_iff.2 hf, tsInOrder_iff.2 ho]

theorem admitSample_of_accepts {s : State} {t : Nat} (h : Accepts s t)
    (k : State → Host.Outcome State Fault Refusal) : admitSample t s k = k s := by
  simp [admitSample, sampleRefusal_eq_none.2 h]

theorem admitSample_eq_next {s s' : State} {t : Nat} {k : State → Host.Outcome State Fault Refusal} :
    admitSample t s k = .next s' ↔ Accepts s t ∧ k s = .next s' := by
  unfold admitSample
  constructor
  · intro h
    split at h
    · cases h
    · rename_i hr; exact ⟨sampleRefusal_eq_none.1 hr, h⟩
  · rintro ⟨ha, hk⟩; simp [sampleRefusal_eq_none.2 ha, hk]

/-- A refusal that precedes a sample's effect is one of four that the spec names. -/
theorem sampleRefusal_reason {s : State} {t : Nat} {r : Refusal} (h : sampleRefusal s t = some r) :
    r = .badConfig ∨ r = .configChanged ∨ r = .tsOverflow ∨ r = .timestampDecreased := by
  unfold sampleRefusal at h
  split at h
  · rename_i hr
    unfold runRefusal at hr
    split at hr
    · split at hr <;> simp_all
    · simp_all
  · split at h
    · split at h <;> simp_all
    · simp_all

/-! ### Conditions -/

theorem quadPhase_eq_false {s : State} : quadPhase s = false ↔ SingleLane s := by
  unfold quadPhase SingleLane; split <;> simp_all

theorem quadPhase_eq_true {s : State} : quadPhase s = true ↔ ∃ q, s.qthr = some q ∧ q ≤ s.edge := by
  unfold quadPhase; split <;> simp_all

theorem slFlushAt_iff {s : State} : slFlushAt s = true ↔ SingleLane s ∧ s.edge % 8 = 7 := by
  simp [slFlushAt, ← quadPhase_eq_false]

theorem slOpcodeAt_iff {s : State} : slOpcodeAt s = true ↔ SingleLane s ∧ s.edge = 7 := by
  simp only [slOpcodeAt, Bool.and_eq_true, slFlushAt_iff, decide_eq_true_eq]
  change (SingleLane s ∧ s.edge % 8 = 7) ∧ s.edge = 7 ↔ _
  constructor
  · rintro ⟨⟨h, -⟩, h7⟩; exact ⟨h, h7⟩
  · rintro ⟨h, h7⟩; exact ⟨⟨h, by omega⟩, h7⟩

theorem qFlushAt_iff {s : State} : qFlushAt s = true ↔ QuadFlush s := by
  unfold qFlushAt QuadFlush; split <;> simp_all

theorem opcodeContinues_iff {s : State} :
    opcodeContinues s = true ↔ ∃ c, s.opcode = some c ∧ contOf s.cfg c ≠ none := by
  unfold opcodeContinues; split <;> simp_all [Option.isSome_iff_ne_none]

theorem modeByteAt_iff {s : State} : modeByteAt s = true ↔ ModeByte s := by
  simp only [modeByteAt, ModeByte, Bool.and_eq_true, qFlushAt_iff, opcodeContinues_iff, decide_eq_true_eq, and_assoc]
  rfl

theorem edgeOverflows_eq_false {s : State} : edgeOverflows s = false ↔ EdgeFits s := by
  unfold edgeOverflows EdgeFits; split <;> simp_all

/-- A quad flush lies in the quad phase. -/
theorem QuadFlush.quadPhase {s : State} (h : QuadFlush s) : quadPhase s = true := by
  obtain ⟨q, hq, hle, -⟩ := h
  exact quadPhase_eq_true.2 ⟨q, hq, hle⟩

/-! ### The command rows -/

/-- Every command byte runs the row operation of its own opcode, whatever the table. -/
theorem runCommand_eq_commandRow (op : Byte) (s : State) : runCommand op s = commandRow op s := by
  unfold runCommand decodeCommand
  split_ifs <;>
    simp_all [execRead, execFastRead, execRead4b, execQuadRead6b, execQuadRead, execEn4b, execEx4b, execUnknown]

/-- A command row leaves the state alone or classifies the open burst. -/
theorem commandRow_next (op : Byte) (s : State) :
    commandRow op s = .next s ∨
      ∃ p, s.lastTs = some p ∧ s.burstOpen = true ∧ s.h2d.head? = some op ∧
        commandRow op s = .next (classifyBurst p s) := by
  unfold commandRow
  split
  · exact .inl rfl
  · rename_i p hp
    by_cases h : (s.burstOpen && decide (s.h2d.head? = some op)) = true
    · rw [if_pos h]
      simp only [Bool.and_eq_true, decide_eq_true_eq] at h
      exact .inr ⟨p, hp, h.1, h.2, rfl⟩
    · rw [if_neg h]; exact .inl rfl

/-- The implicit end leaves the state alone or classifies the open burst, ended at the sample before. -/
theorem implicitEnd_next (s : State) :
    implicitEnd s = .next s ∨ ∃ p, s.lastTs = some p ∧ s.burstOpen = true ∧ implicitEnd s = .next (classifyBurst p s) := by
  unfold implicitEnd
  split
  · split
    · exact .inl rfl
    · rw [runCommand_eq_commandRow]
      obtain h | ⟨p, hp, hb, -, h⟩ := commandRow_next _ s
      · exact .inl h
      · exact .inr ⟨p, hp, hb, h⟩
  · exact .inl rfl

/-- The implicit end of an open burst, after a sample at `p` and before any output, is its classification. -/
theorem implicitEnd_open {s : State} {p : Nat} (hp : s.lastTs = some p) (hb : s.burstOpen = true) (ho : s.out = none) :
    implicitEnd s = .next (classifyBurst p s) := by
  obtain ⟨g, l, b, bs, h2d, d2h⟩ := s
  simp only at hp hb ho
  subst hp hb ho
  cases h2d with
  | nil => rfl
  | cons op rest => simp [implicitEnd, runCommand_eq_commandRow, commandRow]

theorem implicitEnd_closed {s : State} (hb : s.burstOpen = false) : implicitEnd s = .next s := by
  simp [implicitEnd, hb]

/-- The classifier leaves the width alone or sets it to 3 or 4. -/
theorem classify_width (c : Config) (aw : Nat) (h2d d2h : List Byte) (ts0 ts1 : Nat) :
    (classify c aw h2d d2h ts0 ts1).2 = aw ∨ (classify c aw h2d d2h ts0 ts1).2 = 3 ∨
      (classify c aw h2d d2h ts0 ts1).2 = 4 := by
  unfold classify
  split
  · exact .inl rfl
  · exact .inl rfl
  · split
    · exact .inl rfl
    · split
      · simp only [widthAfter]; split_ifs <;> simp
      · exact .inl rfl

/-! ### The assembler -/

/-- What SL.FLUSH does where it applies. -/
theorem execSlFlush_of_flush {w : Word} {s : State} (h : slFlushAt s = true) :
    execSlFlush w s = .next (clearLanes (
      if s.edge = 7 then
        match contOf s.cfg s.accHo with
        | some d => switchToQuad d (captureOpcode s.accHo (push s.accHo s.accDi s))
        | none => captureOpcode s.accHo (push s.accHo s.accDi s)
      else push s.accHo s.accDi s)) := by
  have hs : SingleLane s := (slFlushAt_iff.1 h).1
  have hp : SingleLane (push s.accHo s.accDi s) := fun q hq => by simpa using hs q (by simpa using hq)
  unfold execSlFlush
  rw [if_pos h]
  by_cases h7 : s.edge = 7
  · have h1 : slOpcodeAt (push s.accHo s.accDi s) = true := slOpcodeAt_iff.2 ⟨hp, by simpa using h7⟩
    have h2 : slOpcodeAt (captureOpcode s.accHo (push s.accHo s.accDi s)) = true :=
      slOpcodeAt_iff.2 ⟨fun q hq => by simpa using hp q (by simpa using hq), by simpa using h7⟩
    simp only [execSlOpcode, h1, if_true, push_accHo, andThen_next, execSlContDetect, h2, captureOpcode_opcode,
      captureOpcode_cfg, push_cfg, Option.bind_some, h7]
    cases contOf s.cfg s.accHo <;> rfl
  · have h1 : slOpcodeAt (push s.accHo s.accDi s) = false := by
      rw [Bool.eq_false_iff]; intro hc; exact h7 (by simpa using (slOpcodeAt_iff.1 hc).2)
    simp [execSlOpcode, h1, execSlContDetect, h7]

/-- What Q.FLUSH does where it applies. -/
theorem execQFlush_of_flush {w : Word} {s : State} (h : qFlushAt s = true) :
    execQFlush w s = .next (clearNibble (
      if s.edge = 15 ∧ (s.opcode.bind (contOf s.cfg)).isSome then
        setCont (modeSaysContinue s.accQ) (if afterDummy s then push filler s.accQ s else push s.accQ filler s)
      else (if afterDummy s then push filler s.accQ s else push s.accQ filler s))) := by
  have key : ∀ x y : Byte, modeByteAt (push x y s) = decide (s.edge = 15 ∧ (s.opcode.bind (contOf s.cfg)).isSome) := by
    intro x y
    have hf : qFlushAt (push x y s) = true := by
      rw [qFlushAt_iff] at h ⊢
      obtain ⟨q, h1, h2, h3⟩ := h
      exact ⟨q, by simpa using h1, by simpa using h2, by simpa using h3⟩
    have ho : opcodeContinues (push x y s) = (s.opcode.bind (contOf s.cfg)).isSome := by
      unfold opcodeContinues
      rw [push_opcode, push_cfg]
      cases s.opcode <;> rfl
    rw [modeByteAt, hf, ho, push_edge]
    by_cases h15 : s.edge = 15 <;> simp [h15, modeEdge]
  unfold execQFlush
  rw [if_pos h]
  unfold execQDirection
  rw [if_pos h]
  split <;>
    (simp only [andThen_next, execQMode, execTrack, key, decide_eq_true_eq, push_accQ]
     split <;> rfl)

end Sys2Proof.Machine
end

