-- ==== Sys2Proof/Laws/Assembler.lean ====
section
/-! SUPPORT. The assembler: its rows, run one after another, are the pseudocode of 41_lane_assembler.md R130; and what
each half of that pseudocode leaves in every field. -/

namespace Sys2Proof.Machine

/-- In the quad phase the single-lane rows do not apply. -/
theorem assemble_quadPhase {w : Word} {s : State} (h : quadPhase s = true) :
    assemble w s = andThen (execQFlush w (shiftNibble w s)) fun s4 => execEdgeInc w s4 := by
  have hf : slFlushAt s = false := by simp [slFlushAt, h]
  simp [assemble, execSlShift, execSlFlush, execQShift, h, hf]

/-- In the single-lane phase the quad rows do not apply, also after the switch at edge 7. -/
theorem assemble_singleLane {w : Word} {s : State} (h : SingleLane s) :
    assemble w s = andThen (execSlFlush w (shiftLanes w s)) fun s4 => execEdgeInc w s4 := by
  have hq : quadPhase s = false := quadPhase_eq_false.2 h
  have quiet : ∀ s1 : State, SingleLane s1 →
      (andThen (execQShift w s1) fun s3 => andThen (execQFlush w s3) fun s4 => execEdgeInc w s4) = execEdgeInc w s1 := by
    intro s1 h1
    have hp : quadPhase s1 = false := quadPhase_eq_false.2 h1
    have hf : qFlushAt s1 = false := by
      rw [Bool.eq_false_iff]; intro hc; rw [(qFlushAt_iff.1 hc).quadPhase] at hp; cases hp
    simp [execQShift, execQFlush, hp, hf]
  have hsh : SingleLane (shiftLanes w s) := fun q hq => by simpa using h q (by simpa using hq)
  unfold assemble
  simp only [execSlShift, hq, Bool.false_eq_true, if_false, andThen_next]
  by_cases hf : slFlushAt (shiftLanes w s) = true
  · rw [execSlFlush_of_flush hf, andThen_next, andThen_next]
    refine quiet _ ?_
    intro q hq1
    split_ifs at hq1 ⊢ with he
    · split at hq1
      · simp only [clearLanes_qthr, switchToQuad_qthr, Option.some.injEq] at hq1
        simp only [clearLanes_edge, switchToQuad_edge, captureOpcode_edge, push_edge, he, ← hq1]
        decide
      · simpa using h q (by simpa using hq1)
    · simpa using h q (by simpa using hq1)
  · simp only [Bool.not_eq_true] at hf
    simp only [execSlFlush, hf, Bool.false_eq_true, if_false, andThen_next]
    exact quiet _ hsh

theorem execEdgeInc_eq (w : Word) (s : State) :
    execEdgeInc w s = if s.cfg.edgeBits.map (2 ^ ·) = some (s.edge + 1) then .refused .edgeOverflow
      else .next (countEdge s) := by
  unfold execEdgeInc edgeOverflows countEdge
  cases s.cfg.edgeBits <;> simp [eq_comm]

theorem execEdgeInc_of_fits {w : Word} {s : State} (h : EdgeFits s) : execEdgeInc w s = .next (countEdge s) := by
  simp [execEdgeInc, edgeOverflows_eq_false.2 h]

/-- The rows in sequence are the pseudocode. -/
theorem assemble_eq_pseudo (w : Word) (s : State) : assemble w s = pseudoAssemble w s := by
  have single : ∀ h : SingleLane s, assemble w s = execEdgeInc w (pseudoSingle w s) := by
    intro h
    rw [assemble_singleLane h]
    have hsh : SingleLane (shiftLanes w s) := fun q hq => by simpa using h q (by simpa using hq)
    by_cases h7 : s.edge % 8 = 7
    · rw [execSlFlush_of_flush (slFlushAt_iff.2 ⟨hsh, by simpa using h7⟩), andThen_next]
      congr 1
      unfold pseudoSingle push
      simp only [h7, if_true, shiftLanes_burstOpen]
      by_cases he : s.edge = 7
      · by_cases hb : s.burstOpen = true <;>
          cases hd : contOf s.cfg (shiftBit s.accHo (w.getLsbD s.cfg.hoBit)) <;>
          simp only [shiftLanes_edge, he, hb, if_true, shiftLanes_cfg, shiftLanes_accHo, shiftLanes_accDi, hostOut,
            deviceIn, hd, Bool.false_eq_true, if_false] <;> rfl
      · by_cases hb : s.burstOpen = true <;>
          simp only [shiftLanes_edge, he, hb, if_false, Bool.false_eq_true, if_true] <;> rfl
    · have hf : slFlushAt (shiftLanes w s) = false := by
        rw [Bool.eq_false_iff]; intro hc; exact h7 (by simpa using (slFlushAt_iff.1 hc).2)
      simp only [execSlFlush, hf, Bool.false_eq_true, if_false, andThen_next]
      congr 1
      simp only [pseudoSingle, h7, if_false]
      rfl
  have quad : ∀ q, s.qthr = some q → q ≤ s.edge → assemble w s = execEdgeInc w (pseudoQuad q w s) := by
    intro q hq hle
    rw [assemble_quadPhase (quadPhase_eq_true.2 ⟨q, hq, hle⟩)]
    by_cases h1 : (s.edge - q) % 2 = 1
    · have hf : qFlushAt (shiftNibble w s) = true := qFlushAt_iff.2 ⟨q, hq, hle, h1⟩
      rw [execQFlush_of_flush hf, andThen_next]
      congr 1
      unfold pseudoQuad push
      have ha : afterDummy (shiftNibble w s) = decide (15 + s.dummy < s.edge) := rfl
      simp only [h1, if_true, shiftNibble_edge, shiftNibble_opcode, shiftNibble_cfg, ha, decide_eq_true_eq,
        shiftNibble_burstOpen]
      by_cases hd : 15 + s.dummy < s.edge <;> by_cases hb : s.burstOpen = true <;>
        simp only [hd, hb, if_true, if_false, Bool.false_eq_true] <;>
        by_cases h15 : s.edge = 15 ∧ (s.opcode.bind (contOf s.cfg)).isSome = true <;>
        first | (simp only [if_pos h15]; rfl) | (simp only [if_neg h15]; rfl)
    · have hf : qFlushAt (shiftNibble w s) = false := by
        rw [Bool.eq_false_iff]; intro hc
        obtain ⟨q', hq', -, h'⟩ := qFlushAt_iff.1 hc
        simp only [shiftNibble_qthr, hq, Option.some.injEq] at hq'
        subst hq'
        exact h1 h'
      simp only [execQFlush, hf, Bool.false_eq_true, if_false, andThen_next]
      congr 1
      simp only [pseudoQuad, h1, if_false]
      rfl
  have edgeS : (pseudoSingle w s).edge = s.edge ∧ (pseudoSingle w s).cfg = s.cfg := by
    unfold pseudoSingle
    constructor <;> (dsimp only; split_ifs <;> first | rfl | (split <;> simp) | simp)
  have edgeQ : ∀ q, (pseudoQuad q w s).edge = s.edge ∧ (pseudoQuad q w s).cfg = s.cfg := by
    intro q
    unfold pseudoQuad
    constructor <;> (dsimp only; split_ifs <;> simp)
  have done : ∀ s1 : State, s1.edge = s.edge ∧ s1.cfg = s.cfg →
      execEdgeInc w s1 = if s.cfg.edgeBits.map (2 ^ ·) = some (s.edge + 1) then .refused .edgeOverflow
        else .next { s1 with edge := s.edge + 1 } := by
    rintro s1 ⟨h1, h2⟩
    rw [execEdgeInc_eq, ← h1, ← h2]; rfl
  unfold pseudoAssemble
  cases hq : s.qthr with
  | none => rw [single (fun q h => by rw [hq] at h; cases h), done _ edgeS]
  | some q =>
    by_cases hlt : s.edge < q
    · rw [single (fun q' h => by rw [hq] at h; cases h; exact hlt), done _ edgeS]
      simp only [hlt, if_true]
    · rw [quad q hq (by omega), done _ (edgeQ q)]
      simp only [hlt, if_false]

/-- The trace notation's single-lane words carry their two bytes at the default positions (30_encoding.md R83). -/
theorem slWord_carries {c : Config} (h d : Byte) (hho : c.hoBit = 0) (hdi : c.diBit = 1) :
    CarriesByte c ((List.range 8).map (slWord h d)) h d := by
  have ho : ∀ b b' : Bool, ((BitVec.ofBool b ++ BitVec.ofBool b').setWidth 16).getLsbD 0 = b' := by decide
  have di : ∀ b b' : Bool, ((BitVec.ofBool b ++ BitVec.ofBool b').setWidth 16).getLsbD 1 = b := by decide
  simp only [CarriesByte, hho, hdi, List.map_map]
  exact ⟨List.map_congr_left fun _ _ => ho _ _, List.map_congr_left fun _ _ => di _ _⟩

end Sys2Proof.Machine
end

