-- ==== Sys2Proof/Laws/PerInstr.lean ====
section
/-! SUPPORT. Statements about every instruction as syntax, one lemma per constructor. -/

namespace Sys2Proof.Laws

/-- A well-formed instruction's code has its opcode-table row's length, and matches the row's mask and value. -/
def EncodingMatchesRow.Statement (i : Instr) : Prop :=
  ∀ c : Config, i.wf c = true →
    (encode c i).bits.1 = (rowOf c i).nbits ∧
      (encode c i).bits.2 &&& (rowOf c i).mask = (rowOf c i).pattern

/-- The class bit of a sample word as the table masks it (30_encoding.md R71). -/
theorem class_bit (w : Word) (k : Nat) : w.toNat &&& 2 ^ k = if w.getLsbD k then 2 ^ k else 0 := by
  rw [Nat.and_two_pow, BitVec.getLsbD]
  cases w.toNat.testBit k <;> simp

theorem class_active {w : Word} {k : Nat} (h : (!w.getLsbD k) = true) : w.toNat &&& 2 ^ k = 0 := by
  rw [class_bit]; simp_all

theorem class_idle {w : Word} {k : Nat} (h : w.getLsbD k = true) : w.toNat &&& 2 ^ k = 2 ^ k := by
  rw [class_bit]; simp_all

theorem and_byte (b : Byte) : b.toNat &&& 0xFF = b.toNat := by
  rw [show (0xFF : Nat) = 2 ^ 8 - 1 from rfl, Nat.and_two_pow_sub_one_eq_mod]
  exact Nat.mod_eq_of_lt b.isLt

theorem EncodingMatchesRow.stepIdle (w : Word) (t : Nat) : EncodingMatchesRow.Statement (.stepIdle w t) :=
  fun _ h => ⟨rfl, class_idle h⟩

theorem EncodingMatchesRow.stepActive (w : Word) (t : Nat) : EncodingMatchesRow.Statement (.stepActive w t) :=
  fun _ h => ⟨rfl, class_active h⟩

theorem EncodingMatchesRow.stepStartFresh (w : Word) (t : Nat) : EncodingMatchesRow.Statement (.stepStartFresh w t) :=
  fun _ h => ⟨rfl, class_active h⟩

theorem EncodingMatchesRow.stepStartCont (w : Word) (t : Nat) : EncodingMatchesRow.Statement (.stepStartCont w t) :=
  fun _ h => ⟨rfl, class_active h⟩

theorem EncodingMatchesRow.slShift (w : Word) : EncodingMatchesRow.Statement (.slShift w) :=
  fun _ h => ⟨rfl, class_active h⟩

theorem EncodingMatchesRow.slFlush (w : Word) : EncodingMatchesRow.Statement (.slFlush w) :=
  fun _ h => ⟨rfl, class_active h⟩

theorem EncodingMatchesRow.slOpcode (w : Word) : EncodingMatchesRow.Statement (.slOpcode w) :=
  fun _ h => ⟨rfl, class_active h⟩

theorem EncodingMatchesRow.slContDetect (w : Word) : EncodingMatchesRow.Statement (.slContDetect w) :=
  fun _ h => ⟨rfl, class_active h⟩

theorem EncodingMatchesRow.qShift (w : Word) : EncodingMatchesRow.Statement (.qShift w) :=
  fun _ h => ⟨rfl, class_active h⟩

theorem EncodingMatchesRow.qFlush (w : Word) : EncodingMatchesRow.Statement (.qFlush w) :=
  fun _ h => ⟨rfl, class_active h⟩

theorem EncodingMatchesRow.qDirection (w : Word) : EncodingMatchesRow.Statement (.qDirection w) :=
  fun _ h => ⟨rfl, class_active h⟩

theorem EncodingMatchesRow.qMode (w : Word) : EncodingMatchesRow.Statement (.qMode w) :=
  fun _ h => ⟨rfl, class_active h⟩

theorem EncodingMatchesRow.edgeInc (w : Word) : EncodingMatchesRow.Statement (.edgeInc w) :=
  fun _ h => ⟨rfl, class_active h⟩

theorem EncodingMatchesRow.track (w : Word) : EncodingMatchesRow.Statement (.track w) :=
  fun _ h => ⟨rfl, class_active h⟩

theorem EncodingMatchesRow.read : EncodingMatchesRow.Statement .read :=
  fun _ _ => ⟨rfl, and_byte _⟩

theorem EncodingMatchesRow.fastRead : EncodingMatchesRow.Statement .fastRead :=
  fun _ _ => ⟨rfl, and_byte _⟩

theorem EncodingMatchesRow.read4b : EncodingMatchesRow.Statement .read4b :=
  fun _ _ => ⟨rfl, and_byte _⟩

theorem EncodingMatchesRow.quadRead6b : EncodingMatchesRow.Statement .quadRead6b :=
  fun _ _ => ⟨rfl, and_byte _⟩

theorem EncodingMatchesRow.quadRead : EncodingMatchesRow.Statement .quadRead :=
  fun _ _ => ⟨rfl, and_byte _⟩

theorem EncodingMatchesRow.en4b : EncodingMatchesRow.Statement .en4b :=
  fun _ _ => ⟨rfl, and_byte _⟩

theorem EncodingMatchesRow.ex4b : EncodingMatchesRow.Statement .ex4b :=
  fun _ _ => ⟨rfl, and_byte _⟩

theorem EncodingMatchesRow.unknown (op : Byte) : EncodingMatchesRow.Statement (.unknown op) :=
  fun _ _ => ⟨rfl, Nat.and_zero _⟩

end Sys2Proof.Laws
end

