-- ==== Sys2Proof/Tests/Slice0.lean ====
section
/-! SUPPORT. The model's own tests. Expected results come from spec/95_test_vectors.md (the vector's id stands in each
comment) or from the examples of the rules. The last part shows, for every statement with hypotheses, a state and
operands that meet them together, clause by clause. -/

namespace Sys2Proof.Tests

open Sys2Proof.Machine

/-! ### Helpers -/

/-- Fields of the next state, and none where the instruction stops. -/
def got {α : Type} (o : Host.Outcome State Fault Refusal) (f : State → α) : Option α :=
  match o with
  | .next s => some (f s)
  | .fault _ => none
  | .refused _ => none

/-- The reason of a refusal. -/
def reason (o : Host.Outcome State Fault Refusal) : Option Refusal :=
  match o with
  | .next _ => none
  | .fault _ => none
  | .refused r => some r

/-- The default configuration with another command table (R75). -/
def swapped (tab : CmdTab) : Config := { defaultConfig with cmdtab := tab }

/-- The five fields of a sample word at other positions (R6). -/
def moved : Config := { defaultConfig with csBit := 0, hoBit := 8, diBit := 9, lane2Bit := 10, lane3Bit := 11 }

/-- After a sample at 100, threshold 40: the state before the vectors B3 to B6. -/
def late : State := { State.reset with lastTs := some 100, gapThr := 40 }

/-- `late` with an open burst. -/
def opened (h2d : List Byte) : State :=
  { late with
    burstOpen := true, bStartTs := 50, txnCount := 1, h2d := h2d, d2h := h2d.map fun _ => 0
    edge := 8 * h2d.length, opcode := h2d.head? }

/-- `late` in a single-lane burst, at an edge with both accumulators. -/
def single (edge : Nat) (ho di : Byte) : State :=
  { late with burstOpen := true, txnCount := 1, edge := edge, accHo := ho, accDi := di }

/-- `late` in a 0x6B burst in the quad phase, at an edge with the accumulator and a dummy count. -/
def quad (edge : Nat) (acc : Byte) (dummy : Nat) : State :=
  { late with
    burstOpen := true, txnCount := 1, edge := edge, accQ := acc, dummy := dummy
    qthr := some 8, opcode := some 0x6B }

/-- A burst to classify at an address width; it started at 0 and the last sample was at 0 (section 2.4). -/
def burst (c : Config) (aw : Nat) (h2d : List Byte) : State :=
  { State.resetWith c with
    lastTs := some 0, burstOpen := true, txnCount := 1, h2d := h2d, d2h := h2d.map fun _ => 0, addrw := aw }

/-- The record and the width that a command row leaves. -/
def classified (i : Instr) (c : Config) (aw : Nat) (h2d : List Byte) : Option (Option Record × Nat) :=
  got (exec i (burst c aw h2d)) fun s => (s.out, s.addrw)

/-! ### Well-formedness: each check refuses an ill-formed term -/

theorem test_wf_idle_needs_deasserted :
    (Instr.stepIdle 0x0001 0).wf defaultConfig = false ∧ (Instr.stepIdle 0x8001 0).wf defaultConfig = true := by decide

theorem test_wf_whole_steps_need_asserted :
    (Instr.stepActive 0x8000 0).wf defaultConfig = false ∧ (Instr.stepStartFresh 0x8000 0).wf defaultConfig = false ∧
    (Instr.stepStartCont 0x8000 0).wf defaultConfig = false ∧ (Instr.stepActive 0x7FFF 0).wf defaultConfig = true := by decide

theorem test_wf_assembler_rows_need_asserted :
    ∀ i ∈ [Instr.slShift 0x8003, .slFlush 0x8003, .slOpcode 0x8003, .slContDetect 0x8003, .qShift 0x8003, .qFlush 0x8003,
      .qDirection 0x8003, .qMode 0x8003, .edgeInc 0x8003, .track 0x8003], i.wf defaultConfig = false := by decide

/-- A data row whose opcode the table gives to a width switch is no row of that table (R75, R76). -/
theorem test_wf_data_rows_not_shadowed :
    Instr.read.wf (swapped { refCmdTab with en4b := 0x03 }) = false ∧ Instr.fastRead.wf (swapped { refCmdTab with ex4b := 0x0B }) = false ∧
    Instr.read4b.wf (swapped { refCmdTab with en4b := 0x13 }) = false ∧
    Instr.quadRead6b.wf (swapped { refCmdTab with ex4b := 0x6B }) = false ∧
    Instr.quadRead.wf (swapped { refCmdTab with en4b := 0xEB }) = false ∧ Instr.ex4b.wf (swapped { refCmdTab with ex4b := 0xB7 }) = false := by
  decide

/-- The catch-all row takes no opcode of another row (R191). -/
theorem test_wf_unknown_is_the_rest :
    (∀ op ∈ [(0x03 : Byte), 0x0B, 0x13, 0x6B, 0xEB, 0xB7, 0xE9], (Instr.unknown op).wf defaultConfig = false) ∧
    (Instr.unknown 0x9F).wf defaultConfig = true := by decide

/-! ### Decoding: words written out from R70, R71 and R77 -/

/-- CS# = 1 in bit 15, whatever the lanes carry. -/
theorem test_decode_idle :
    decode defaultConfig (.sample 0b1000000000000000 7) = .stepIdle 0x8000 7 ∧
    decode defaultConfig (.sample 0b1000000000001111 7) = .stepIdle 0x800F 7 := by decide

/-- CS# = 0 in bit 15: the thirteen rows of an active word, STEP.ACTIVE first. -/
theorem test_decode_active :
    decode defaultConfig (.sample 0b0000000000000011 7) = .stepActive 3 7 ∧
    matchingRows defaultConfig (.sample 0b0000000000000011 7) =
      [.stepActive 3 7, .stepStartFresh 3 7, .stepStartCont 3 7, .slShift 3, .slFlush 3, .slOpcode 3, .slContDetect 3,
        .qShift 3, .qFlush 3, .qDirection 3, .qMode 3, .edgeInc 3, .track 3] := by decide

theorem test_decode_commands :
    decode defaultConfig (.command 0b00000011) = .read ∧ decode defaultConfig (.command 0b00001011) = .fastRead ∧
    decode defaultConfig (.command 0b00010011) = .read4b ∧ decode defaultConfig (.command 0b01101011) = .quadRead6b ∧
    decode defaultConfig (.command 0b11101011) = .quadRead ∧ decode defaultConfig (.command 0b10110111) = .en4b ∧
    decode defaultConfig (.command 0b11101001) = .ex4b ∧ decode defaultConfig (.command 0b10011111) = .unknown 0x9F := by decide

/-- The rows of a swapped table (R75). -/
theorem test_decode_swapped_table :
    decode (swapped { refCmdTab with en4b := 0x06 }) (.command 0x06) = .en4b ∧
    decode (swapped { refCmdTab with en4b := 0x06 }) (.command 0xB7) = .unknown 0xB7 := by decide

theorem test_decode_rejects_by_name :
    decodeWord defaultConfig 8 0x100 = .error (.wordTooWide 8 0x100) ∧
    decodeWord defaultConfig 32 0 = .error (.noSuchFormat 32) := ⟨rfl, rfl⟩

/-- No two command bytes share a row of the reference table but the catch-all row. -/
theorem test_decode_round_trip_commands :
    ∀ op : Byte, encode defaultConfig (decode defaultConfig (.command op)) = .command op := by decide

/-! ### The whole steps (95_test_vectors.md section 2.1) -/

/-- B8: an idle sample ends nothing. -/
theorem test_stepIdle_b8 :
    got (exec (.stepIdle 0x8000 5000) (opened [0xB7])) (fun s => (s.gapThr, s.lastTs, s.burstOpen, s.h2d, s.recValid)) =
      some (40, some 5000, true, [0xB7], false) := by decide

/-- A13: an idle word is not assembled, whatever its lanes. -/
theorem test_stepIdle_a13 :
    got (exec (.stepIdle 0x800F 110) (quad 8 0 4)) (fun s => (s.edge, s.accQ)) = some (8, 0) := by decide

/-- B1: the first sample starts no burst and is assembled as an orphan. -/
theorem test_stepActive_b1 :
    got (exec (.stepActive 0x0000 0) State.reset) (fun s => (s.gapThr, s.lastTs, s.burstOpen, s.edge, s.out)) =
      some (1000, some 0, false, 1, none) := by decide

/-- B6: a zero gap makes the threshold 0. -/
theorem test_stepActive_b6 :
    got (exec (.stepActive 0x0000 100) late) (fun s => (s.gapThr, s.burstOpen, s.edge)) = some (0, false, 1) := by decide

/-- B3: a fresh start with no burst open. -/
theorem test_stepStartFresh_b3 :
    got (exec (.stepStartFresh 0x0000 141) late)
      (fun s => (s.burstOpen, s.bStartTs, s.txnCount, s.edge, s.out)) =
      some (true, 141, 1, 1, none) := by decide

/-- B10: the start ends the open burst, at the timestamp of the sample before. -/
theorem test_stepStartFresh_b10 :
    got (exec (.stepStartFresh 0x0000 9000) { opened [0xB7] with lastTs := some 7000, bStartTs := 5000 })
      (fun s => (s.out, s.addrw, s.bStartTs, s.h2d)) =
      some (some (.control 0xB7 (.known (.openParam .nameEn4b)) 5000 7000), 4, 9000, []) := by decide

/-- B12 before its sample. -/
def b12 : State :=
  { opened [0xEB, 0x00, 0x10, 0x00, 0xA0, 0, 0, 0, 0] with
    cont := true, qthr := some 8, dummy := 4, edge := 24, lastTs := some 1000, bStartTs := 700 }

/-- B12: a continuous start. -/
theorem test_stepStartCont_b12 :
    got (exec (.stepStartCont 0x0003 9000) b12) (fun s => (s.h2d, s.d2h, s.accQ, s.edge, s.cont)) =
      some ([0xEB], [0x00], 0x03, 9, true) := by decide

theorem test_stepStartCont_b12_record :
    got (exec (.stepStartCont 0x0003 9000) b12) (fun s => s.out) =
      some (some (.data 0xEB (.given "Quad Read") 0x1000 0x1002 2 3 700 1000)) := by decide

/-- B4, B5: no start at a gap equal to the threshold, and the threshold tightens before the test. -/
theorem test_step_b4_b5 :
    selectStep late 0 140 = .stepActive 0 140 ∧ selectStep late 0 141 = .stepStartFresh 0 141 ∧
    got (step { late with input := [⟨0, 105⟩] }) (fun s => (s.gapThr, s.burstOpen)) = some (20, false) := by decide

/-- B11, B13. -/
theorem test_step_refuses_b11_b13 :
    reason (step { late with input := [⟨0, 99⟩] }) = some .timestampDecreased ∧
    reason (step ((State.resetWith { defaultConfig with tsBits := some 16 }).deliver ⟨0, 65536⟩)) = some .tsOverflow := by
  decide

/-! ### The lane assembler (section 2.2) -/

/-- A1. -/
theorem test_slShift_a1 :
    got (exec (.slShift 0x0003) (single 2 0x01 0x00)) (fun s => (s.accHo, s.accDi)) = some (0x03, 0x01) := by decide

/-- A6: bit 7 is lost. -/
theorem test_slShift_a6 :
    got (exec (.slShift 0x0001) (single 3 0xFF 0)) (fun s => (s.accHo, s.accDi)) = some (0xFF, 0) := by decide

/-- A3, after its shift. -/
theorem test_slFlush_a3 :
    got (exec (.slFlush 0x0001) (single 7 0xEB 0x01))
      (fun s => (s.h2d, s.d2h, s.opcode, s.accHo, s.accDi)) = some ([0xEB], [0x01], some 0xEB, 0, 0) ∧
    got (exec (.slFlush 0x0001) (single 7 0xEB 0x01)) (fun s => (s.qthr, s.dummy)) = some (some 8, 4) := by decide

/-- A5, after its shift: only edge 7 captures. -/
theorem test_slFlush_a5 :
    got (exec (.slFlush 0x0000) { single 15 0x24 0x80 with opcode := some 0x03 }) (fun s => (s.h2d, s.d2h, s.opcode, s.qthr)) =
      some ([0x24], [0x80], some 0x03, none) := by decide

/-- R134's example. -/
theorem test_slOpcode_edge7 :
    got (exec (.slOpcode 0) (single 7 0x6B 0)) (fun s => (s.opcode, s.accHo)) = some (some 0x6B, 0x6B) := by decide

/-- A15: orphan traffic is captured too. -/
theorem test_slOpcode_a15 :
    got (exec (.slFlush 0) { single 7 0x06 0 with burstOpen := false }) (fun s => (s.opcode, s.orphanCount, s.h2d)) =
      some (some 0x06, 1, []) := by decide

/-- R135's example, both halves. -/
theorem test_slContDetect_r135 :
    got (exec (.slContDetect 0) { single 7 0 0 with opcode := some 0xEB }) (fun s => (s.qthr, s.dummy)) = some (some 8, 4) ∧
    got (exec (.slContDetect 0) { single 7 0 0 with opcode := some 0x0B }) (fun s => (s.qthr, s.dummy)) = some (none, 0) := by
  decide

/-- R136's example. -/
theorem test_qShift_r136 :
    got (exec (.qShift 0x0005) (quad 9 0x0A 4)) (fun s => s.accQ) = some 0xA5 := by decide

/-- A14: bits 4 to 7 are ignored; and IO3 is the top bit, wherever it lies (R72). -/
theorem test_qShift_a14 :
    got (exec (.qShift 0x00F5) (quad 8 0 4)) (fun s => s.accQ) = some 0x05 ∧
    got (exec (.qShift 0x4001) { quad 8 0 4 with cfg := { defaultConfig with lane3Bit := 14 } }) (fun s => s.accQ) =
      some 0x09 := by decide

/-- A8, after its shift. -/
theorem test_qFlush_a8 :
    got (exec (.qFlush 0x0002) (quad 9 0x12 4)) (fun s => (s.h2d, s.d2h, s.accQ)) = some ([0x12], [0x00], 0) := by decide

/-- A9, after its shift: the mode byte. -/
theorem test_qFlush_a9 :
    got (exec (.qFlush 0x0005) (quad 15 0xA5 4)) (fun s => (s.h2d, s.d2h, s.cont, s.accQ)) =
      some ([0xA5], [0x00], true, 0) := by decide

/-- A10, A11: the dummy window's last byte and the first data byte. -/
theorem test_qDirection_a10_a11 :
    got (exec (.qDirection 0) (quad 19 0xC3 4)) (fun s => (s.h2d, s.d2h)) = some ([0xC3], [0x00]) ∧
    got (exec (.qDirection 0) (quad 21 0xC3 4)) (fun s => (s.h2d, s.d2h)) = some ([0x00], [0xC3]) := by decide

/-- A12: an odd dummy count. -/
theorem test_qDirection_a12 :
    got (exec (.qDirection 0) (quad 19 0xC3 3)) (fun s => (s.h2d, s.d2h)) = some ([0x00], [0xC3]) := by decide

/-- T2, T4: handed over at edge 15 only. -/
theorem test_qMode_t2_t4 :
    got (exec (.qMode 0) (quad 15 0xA0 4)) (fun s => s.cont) = some true ∧
    got (exec (.qMode 0) { quad 15 0x20 4 with cont := true }) (fun s => s.cont) = some false ∧
    got (exec (.qMode 0) (quad 13 0xA0 4)) (fun s => s.cont) = some false := by decide

/-- T1, T3, T5 to T7. -/
theorem test_track_vectors :
    [(0xA5 : Byte), 0xAF, 0xFA, 0x00, 0xB0].map (fun b => got (exec (.track 0) (quad 15 b 4)) (fun s => s.cont)) =
      [some true, some true, some false, some false, some false] := by decide

/-- A16, and the edge before it. -/
theorem test_edgeInc_a16 :
    reason (exec (.edgeInc 0) { single 15 0 0 with cfg := { defaultConfig with edgeBits := some 4 } }) =
      some .edgeOverflow ∧
    got (exec (.edgeInc 0) { single 14 0 0 with cfg := { defaultConfig with edgeBits := some 4 } }) (fun s => s.edge) =
      some 15 := by decide

/-- W1: the three bytes 0x05, 0xC3, 0x7E from a fresh start. -/
theorem test_single_lane_round_trip_w1 :
    got (assembleAll (([(0x05, 0), (0xC3, 0), (0x7E, 0)] : List (Byte × Byte)).flatMap fun hd =>
      (List.range 8).map (slWord hd.1 hd.2)) (single 0 0 0)) (fun s => (s.h2d, s.d2h, s.qthr)) =
      some ([0x05, 0xC3, 0x7E], [0, 0, 0], none) := by decide

/-! ### The classifier (section 2.4) -/

/-- K2. -/
theorem test_read_k2 :
    classified .read defaultConfig 3 [0x03, 0x00, 0x20, 0x00, 0x11, 0x22, 0x33, 0x44] =
      some (some (.data 0x03 (.given "Read") 0x2000 0x2003 3 3 0 0), 3) := by decide

/-- K6: the end address is below 0; K3: truncation. -/
theorem test_read_k6_k3 :
    classified .read defaultConfig 3 [0x03, 0, 0, 0] = some (some (.data 0x03 (.given "Read") 0 (-1) (-1) 3 0 0), 3) ∧
    classified .read defaultConfig 3 [0x03, 0x00] = some (some (.error 0x03 3 0 0), 3) := by decide

/-- K7. -/
theorem test_fastRead_k7 :
    classified .fastRead defaultConfig 3 [0x0B, 0x00, 0x10, 0x00, 0xFF, 1, 2, 3, 4, 5] =
      some (some (.data 0x0B (.given "Fast Read") 0x1000 0x1004 4 3 0 0), 3) := by decide

/-- K8. -/
theorem test_fastRead_k8 :
    classified .fastRead defaultConfig 3 [0x0B, 0x00, 0x10, 0x00] =
      some (some (.data 0x0B (.given "Fast Read") 0x1000 0x0FFE (-2) 3 0 0), 3) := by decide

/-- K9: the source's worked example W2. -/
theorem test_read4b_k9 :
    classified .read4b defaultConfig 4 [0x13, 0x00, 0x10, 0x00, 0x00] =
      some (some (.data 0x13 (.openParam .name13) 0x100000 0x0FFFFF (-1) 4 0 0), 4) := by decide

/-- K10: the same bytes in 3-byte mode. -/
theorem test_read4b_k10 :
    classified .read4b defaultConfig 3 [0x13, 0x00, 0x10, 0x00, 0x00] =
      some (some (.data 0x13 (.openParam .name13) 0x1000 0x1000 0 3 0 0), 3) := by decide

/-- K11. -/
theorem test_quadRead6b_k11 :
    classified .quadRead6b defaultConfig 3 [0x6B, 0x12, 0x34, 0x56, 0xA5, 0, 0, 0, 0] =
      some (some (.data 0x6B (.openParam .name6B) 0x123456 0x123458 2 3 0 0), 3) := by decide

/-- K12. -/
theorem test_quadRead_k12 :
    classified .quadRead defaultConfig 3 [0xEB, 0x00, 0x30, 0x00, 0xFF, 0, 0, 0, 0, 0, 0, 0, 0, 0, 0] =
      some (some (.data 0xEB (.given "Quad Read") 0x3000 0x3008 8 3 0 0), 3) := by decide

/-- K13. -/
theorem test_en4b_k13 :
    classified .en4b defaultConfig 3 [0xB7] = some (some (.control 0xB7 (.known (.openParam .nameEn4b)) 0 0), 4) := by decide

/-- K21: the level filter drops the record and not the width. -/
theorem test_en4b_k21 :
    classified .en4b { defaultConfig with level := .onlyData } 3 [0xB7] = some (none, 4) := by decide

/-- K14. -/
theorem test_ex4b_k14 :
    classified .ex4b defaultConfig 4 [0xE9, 0x55] = some (some (.control 0xE9 (.known (.openParam .nameEx4b)) 0 0), 3) := by
  decide

/-- K16. -/
theorem test_unknown_k16 :
    classified (.unknown 0x9F) defaultConfig 3 [0x9F, 0, 0, 0] = some (some (.control 0x9F (.raw 0x9F) 0 0), 3) := by decide

/-- K22: a continuation opcode with no data or control entry. -/
theorem test_unknown_k22 :
    classified (.unknown 0x6C) { defaultConfig with cmdtab := { refCmdTab with cont := [(0x6C, 4)] } } 3
      [0x6C, 0, 0, 0, 0xA0] = some (some (.control 0x6C (.raw 0x6C) 0 0), 3) := by decide

/-- K1: an empty burst; K19: a one-byte address; K18: the end address does not wrap. -/
theorem test_classify_k1_k19_k18 :
    classify defaultConfig 3 [] [] 0 0 = (none, 3) ∧
    classify defaultConfig 1 [0x03, 0x7F, 0x00] [0, 0, 0] 0 0 =
      (some (.data 0x03 (.given "Read") 0x7F 0x7F 0 1 0 0), 1) ∧
    classify defaultConfig 3 [0x03, 0xFF, 0xFF, 0xFF, 1, 2, 3, 4, 5, 6] [0] 0 0 =
      (some (.data 0x03 (.given "Read") 0xFFFFFF 0x1000004 5 3 0 0), 3) := by decide

/-! ### Filters and configurations (sections 2.5, 2.6) -/

/-- F1 to F7. -/
theorem test_address_filter :
    addrPass { defaultConfig with addrMin := 0x1000 } 0x0500 = false ∧
    addrPass { defaultConfig with addrMin := 0x1000 } 0x2000 = true ∧
    addrPass { defaultConfig with addrMin := 0x1000 } 0x1000 = true ∧
    addrPass { defaultConfig with addrMin := 0x1000 } 0x0FFF = false ∧
    addrPass { defaultConfig with addrMax := some 0x2000 } 0x2000 = true ∧
    addrPass { defaultConfig with addrMax := some 0x2000 } 0x2001 = false ∧
    addrPass { defaultConfig with addrMax := some 0 } 0 = true := by decide

/-- L1 to L8: the cells for ERROR, CONTROL and DATA. -/
theorem test_level_matrix :
    [(Level.everything, true), (.everything, false), (.onlyData, true), (.onlyData, false), (.onlyErrors, true),
      (.onlyErrors, false), (.onlyControl, true), (.onlyControl, false)].map (fun x =>
        [Category.error, .control, .data].map (levelPasses { defaultConfig with level := x.1, errPassesDc := x.2 })) =
    [[true, true, true], [true, true, true], [true, false, true], [false, false, true], [true, false, false],
      [true, false, false], [true, true, false], [false, true, false]] := by decide

/-- X1 to X4. -/
theorem test_bad_configurations :
    [{ defaultConfig with initAddrWidth := 5 }, { defaultConfig with cmdtab := { refCmdTab with ex4b := 0xB7 } },
      { defaultConfig with cmdtab := { refCmdTab with data := [(0xB7, ⟨.given "Read", 0⟩)] } },
      { defaultConfig with lane2Bit := 15 }].map (fun c => reason (step (State.resetWith c))) =
    [some .badConfig, some .badConfig, some .badConfig, some .badConfig] := by decide

/-- R7: a position outside the word, and an extra lane on each of the three other fields. -/
theorem test_bad_positions :
    [{ defaultConfig with csBit := 16 }, { defaultConfig with csBit := 2 }, { defaultConfig with hoBit := 3 },
      { defaultConfig with diBit := 2 }, { defaultConfig with lane3Bit := 2 }].map admitted =
    [false, false, false, false, false] ∧ admitted moved = true := by decide

/-- R6: with chip select at bit 0 and the lanes at bits 8 to 11, the same rules read those bits. -/
theorem test_moved_positions :
    got (step ((State.resetWith moved).deliver ⟨0x8301, 5⟩)) (fun s => (s.lastTs, s.edge)) = some (some 5, 0) ∧
    got (step ((State.resetWith moved).deliver ⟨0x8300, 5⟩)) (fun s => (s.edge, s.accHo, s.accDi)) = some (1, 1, 1) ∧
    nibble moved 0xA5FF = 0x5 := by decide

/-- X5. -/
theorem test_configuration_changed :
    reason (step { late with cfg := { defaultConfig with level := .onlyData }, input := [⟨0, 110⟩] }) =
      some .configChanged := by decide

/-! ### Ports, traces and placing an instruction -/

/-- R83's shorthands: `SL(5000, 10, 0xB7, 0x00) = 1 0 1 1 0 1 1 1` (program P1) and `Q(5140, 10, 0xA5) = A 5` (P2). -/
theorem test_trace_words :
    (traceSL 5000 10 0xB7 0x00).map (fun x => x.w) = [1, 0, 1, 1, 0, 1, 1, 1] ∧
    (traceSL 10400 10 0x00 0xDE).map (fun x => x.w) = [2, 2, 0, 2, 2, 2, 2, 0] ∧
    (traceSL 5000 10 0xB7 0x00).map (fun x => x.t) = [5000, 5010, 5020, 5030, 5040, 5050, 5060, 5070] ∧
    traceQ 5140 10 0xA5 = [⟨0xA, 5140⟩, ⟨0x5, 5150⟩] ∧ traceIdle 3 = [⟨0x8000, 3⟩] := by decide

theorem test_deliver_in_order :
    (deliverAll (traceQ 5 10 0xA5) State.reset).input = [⟨0xA, 5⟩, ⟨0x5, 15⟩] := by decide

/-- A placed sample word is the next instruction, and so is a placed command byte (log 18). -/
theorem test_withFetchWord :
    got (step (State.reset.withFetchWord 16 0x8000)) (fun s => (s.lastTs, s.edge)) = some (some 0, 0) ∧
    got (step (State.reset.withFetchWord 16 0x0001)) (fun s => (s.lastTs, s.edge, s.accHo)) = some (some 0, 1, 1) ∧
    got (step (State.reset.withFetchWord 8 0xB7)) (fun s => (s.out.map Record.category, s.addrw)) =
      some (some .control, 4) := by decide

/-- The debug view (R239), and no record offered. -/
theorem test_debug_view : (late.debugView, late.recValid) = ((0, 0), false) := by decide

/-! ### Witnesses: a state and operands that meet all hypotheses of a statement together, one for each clause -/

theorem exists_next {o : Host.Outcome State Fault Refusal} {α : Type} {f : State → α} {a : α} (h : got o f = some a) :
    ∃ s, o = .next s ∧ f s = a := by
  cases o <;> simp_all [got]

theorem accepts_of {s : State} {t : Nat} (h : sampleRefusal s t = none) : Accepts s t :=
  sampleRefusal_eq_none.1 h

theorem single_of {s : State} (h : quadPhase s = false) : SingleLane s :=
  quadPhase_eq_false.1 h

theorem quad_of {s : State} (h : qFlushAt s = true) : QuadFlush s :=
  qFlushAt_iff.1 h

theorem mode_of {s : State} (h : modeByteAt s = true) : ModeByte s :=
  modeByteAt_iff.1 h

/-- Before the second nibble of the mode byte, in a chain of continuous 0x6B bursts. -/
def midBurst : State :=
  { quad 14 0 4 with h2d := [0x6B, 1, 2, 3], d2h := [0, 0, 0, 0], cont := true, input := [⟨0xA, 110⟩] }

theorem test_midBurst_inv : RunInv midBurst where
  sameLength := rfl
  closedIsEmpty := fun h => by cases h
  contKeepsOpcode := fun _ => ⟨0x6B, rfl, rfl, rfl⟩
  thresholdBound := by decide
  quadThreshold := .inr rfl
  quadHasOpcode := fun _ => ⟨by decide, 0x6B, rfl, rfl⟩
  widthLegal := by decide
  openAfterSample := fun _ => by decide
  openIffStarted := by decide
  lengthAccounting := fun _ => ⟨fun h => (by cases h), fun _ => rfl⟩

theorem test_witness_SampleClassByChipSelect :
    ((0x8000 : Word).getLsbD defaultConfig.csBit = true ∧ (0x7FFF : Word).getLsbD defaultConfig.csBit = false ∧
      defaultConfig.csBit = 15) ∧
    ((0x0001 : Word).getLsbD moved.csBit = true ∧ (0xFFFE : Word).getLsbD moved.csBit = false) := by decide

theorem test_witness_DecodeAndEncodeAgree :
    (∀ i ∈ [Instr.stepIdle 0x8000 0, .stepActive 0x7FFF 9, .slShift 0, .track 0x7FFF], i.wf defaultConfig = true) ∧
    (∀ i ∈ [Instr.read, .fastRead, .read4b, .quadRead6b, .quadRead, .en4b, .ex4b, .unknown 0x9F],
      i ∈ [Instr.read, .fastRead, .read4b, .quadRead6b, .quadRead, .en4b, .ex4b, .unknown 0x9F] ∧ i.wf defaultConfig = true) := by
  decide

theorem test_witness_UnusedSampleBitsIgnored :
    let w : Word := 0x0001
    let w' : Word := 0x7FF1
    w ≠ w' ∧ w.getLsbD State.reset.cfg.csBit = w'.getLsbD State.reset.cfg.csBit ∧
      w.getLsbD State.reset.cfg.hoBit = w'.getLsbD State.reset.cfg.hoBit ∧
      w.getLsbD State.reset.cfg.diBit = w'.getLsbD State.reset.cfg.diBit ∧
      w.getLsbD State.reset.cfg.lane2Bit = w'.getLsbD State.reset.cfg.lane2Bit ∧
      w.getLsbD State.reset.cfg.lane3Bit = w'.getLsbD State.reset.cfg.lane3Bit := by decide

theorem test_witness_InvariantsHoldAtReset : admitted defaultConfig = true := by decide

theorem test_witness_EveryStepKeepsTheInvariants :
    RunInv midBurst ∧ ∃ s', step midBurst = .next s' ∧ s'.edge = 15 :=
  ⟨test_midBurst_inv, exists_next (f := fun s => s.edge) (by decide)⟩

theorem test_witness_InvariantsHoldOnEveryRun :
    admitted defaultConfig = true ∧ ∃ s, Reachable defaultConfig s ∧ s.lastTs = some 7 := by
  refine ⟨by decide, ?_⟩
  obtain ⟨s, h, hl⟩ := exists_next (o := step (State.reset.deliver ⟨0x8000, 7⟩)) (f := fun s => s.lastTs) (a := some 7)
    (by decide)
  exact ⟨s, .step (.deliver _ .reset) h, hl⟩

/-- The hypothesis holds in a state whose step is refused. -/
theorem test_witness_RefusalsAreTheFiveOfTheSpec :
    RunInv { midBurst with input := [⟨0xA, 99⟩] } ∧
      reason (step { midBurst with input := [⟨0xA, 99⟩] }) = some .timestampDecreased := by
  obtain ⟨⟨a, b, c, d, e⟩, f, g, h, i, j⟩ := test_midBurst_inv
  exact ⟨⟨⟨a, b, c, d, e⟩, f, g, h, i, j⟩, by decide⟩

theorem test_witness_AcceptedSamplesAlwaysStep :
    RunInv midBurst ∧ midBurst.input = ⟨0xA, 110⟩ :: [] ∧ Accepts midBurst 110 ∧ midBurst.cfg.edgeBits = none :=
  ⟨test_midBurst_inv, rfl, accepts_of (by decide), rfl⟩

theorem test_witness_StepIsThePseudocode :
    ((midBurst.cont = true → midBurst.opcode ≠ none) ∧ midBurst.input = ⟨0xA, 110⟩ :: [] ∧ Accepts midBurst 110) ∧
    (let s := { midBurst with input := [⟨0xA, 99⟩] }
     (s.cont = true → s.opcode ≠ none) ∧ s.input = ⟨0xA, 99⟩ :: [] ∧ admitted s.cfg = true ∧ s.cfg = s.cfg0 ∧
       (∀ k, s.cfg.tsBits = some k → 99 < 2 ^ k) ∧ s.lastTs = some 100 ∧ 99 < 100) :=
  ⟨⟨by decide, rfl, accepts_of (by decide)⟩,
    ⟨fun _ h => (by cases h), rfl, by decide, rfl, fun k h => (by cases h), rfl, by decide⟩⟩

theorem test_witness_StepRunsTheSelectedRow : midBurst.input = ⟨0xA, 110⟩ :: [] := rfl

theorem test_witness_ImplicitEndRunsTheCommandRow :
    (opened [0xB7]).burstOpen = true ∧ (opened [0xB7]).h2d = 0xB7 :: [] ∧ (opened [0xB7]).lastTs = some 100 := by decide

theorem test_witness_NoSampleNoWork :
    State.reset.input = [] ∧ admitted State.reset.cfg = true ∧ State.reset.cfg = State.reset.cfg0 :=
  ⟨rfl, by decide, rfl⟩

theorem test_witness_StartCondition :
    (min (4 * gap late 141) late.gapThr < gap late 141 ∧ (0 : Word).getLsbD defaultConfig.csBit = false) ∧
    ¬ min (4 * gap late 140) late.gapThr < gap late 140 ∧
    selectStep late 0 141 = .stepStartFresh 0 141 ∧ selectStep b12 3 9000 = .stepStartCont 3 9000 := by decide

theorem test_witness_StartConditionClosedForm :
    ((0 : Word).getLsbD defaultConfig.csBit = false ∧ late.gapThr < gap late 141) ∧
    (State.reset.lastTs = none ∧ (0 : Word).getLsbD defaultConfig.csBit = false) ∧
    (let s := { late with gapThr := 0 }
     s.lastTs = some 100 ∧ s.gapThr = 0 ∧ 100 < 101 ∧ (0 : Word).getLsbD defaultConfig.csBit = false) := by decide

theorem test_witness_EverySampleUpdatesThresholdAndTimestamp :
    (∃ s', step (State.reset.deliver ⟨0, 0⟩) = .next s' ∧ s'.gapThr = 1000) ∧ State.reset.lastTs = none ∧
    (∃ s', step midBurst = .next s' ∧ s'.lastTs = some 110) ∧ midBurst.lastTs = some 100 :=
  ⟨exists_next (f := fun s => s.gapThr) (by decide), rfl, exists_next (f := fun s => s.lastTs) (by decide), rfl⟩

theorem test_witness_ThresholdNeverIncreases :
    (∃ s', step midBurst = .next s' ∧ s'.gapThr = 40) ∧ ∃ s', exec (.stepActive 0 101) late = .next s' ∧ s'.gapThr = 4 :=
  ⟨exists_next (f := fun s => s.gapThr) (by decide), exists_next (f := fun s => s.gapThr) (by decide)⟩

theorem test_witness_TimestampOrder :
    late.lastTs = some 100 ∧ 99 < 100 ∧ admitted late.cfg = true ∧ late.cfg = late.cfg0 ∧
      (∀ k, late.cfg.tsBits = some k → 100 < 2 ^ k) ∧ (0x8000 : Word).getLsbD defaultConfig.csBit = true :=
  ⟨rfl, by decide, by decide, rfl, fun k h => (by cases h), by decide⟩

theorem test_witness_RefusalConditions :
    admitted { defaultConfig with initAddrWidth := 0 } = false ∧
    (admitted late.cfg0 = true ∧ { defaultConfig with level := .onlyData } ≠ late.cfg0) ∧
    (let c := { defaultConfig with tsBits := some 16 }
     admitted c = true ∧ (State.resetWith c).cfg = (State.resetWith c).cfg0 ∧ c.tsBits = some 16 ∧ 2 ^ 16 ≤ 65536) := by
  decide

theorem test_witness_IdleStepEffect : (0x8000 : Word).getLsbD defaultConfig.csBit = true ∧ Accepts late 100 :=
  ⟨by decide, accepts_of (by decide)⟩

/-- The gap equals the threshold; the edge fits, and in the second state it does not. -/
theorem test_witness_ActiveStepEffect :
    (let s := opened [0xB7]
     (0 : Word).getLsbD defaultConfig.csBit = false ∧ gap s 140 ≤ min (4 * gap s 140) s.gapThr ∧ Accepts s 140 ∧ EdgeFits s ∧
       s.burstOpen = true ∧ s.edge ≠ 7) ∧
    (let s := State.reset
     gap s 0 ≤ min (4 * gap s 0) s.gapThr ∧ Accepts s 0 ∧ EdgeFits s ∧ s.burstOpen = false ∧ s.edge ≠ 7) ∧
    (let s := { single 15 0 0 with cfg := { defaultConfig with edgeBits := some 4 }, cfg0 := { defaultConfig with edgeBits := some 4 } }
     gap s 140 ≤ min (4 * gap s 140) s.gapThr ∧ Accepts s 140 ∧ ¬ EdgeFits s) :=
  ⟨⟨by decide, by decide, accepts_of (by decide), edgeOverflows_eq_false.1 (by decide), rfl, by decide⟩,
    ⟨by decide, accepts_of (by decide), edgeOverflows_eq_false.1 (by decide), rfl, by decide⟩,
    ⟨by decide, accepts_of (by decide), fun h => h 4 rfl rfl⟩⟩

theorem test_witness_FreshStartEffect :
    ∀ s ∈ [late, opened [0xB7]],
      (0 : Word).getLsbD defaultConfig.csBit = false ∧ min (4 * gap s 141) s.gapThr < gap s 141 ∧ s.cont = false ∧ Accepts s 141 ∧
        s.cfg.edgeBits ≠ some 0 := by
  intro s hs
  simp only [List.mem_cons, List.not_mem_nil, or_false] at hs
  rcases hs with rfl | rfl <;> exact ⟨by decide, by decide, rfl, accepts_of (by decide), by decide⟩

theorem test_witness_ContinuousStartEffect :
    (3 : Word).getLsbD defaultConfig.csBit = false ∧ min (4 * gap b12 1041) b12.gapThr < gap b12 1041 ∧ b12.cont = true ∧
      b12.opcode = some 0xEB ∧ b12.qthr = some 8 ∧ Accepts b12 1041 :=
  ⟨by decide, by decide, rfl, rfl, rfl, accepts_of (by decide)⟩

/-- With no quad threshold, and just below one. -/
theorem test_witness_SingleLaneShift : SingleLane (single 0 0xFF 0xFF) ∧ SingleLane (quad 7 0 4) :=
  ⟨single_of (by decide), single_of (by decide)⟩

theorem test_witness_SingleLaneFlush :
    (SingleLane (single 15 0 0) ∧ (single 15 0 0).edge % 8 = 7 ∧ (single 15 0 0).edge ≠ 7) ∧
    (SingleLane (single 7 0x03 0) ∧ (single 7 0x03 0).edge = 7 ∧ contOf (single 7 0x03 0).cfg 0x03 = none) ∧
    (SingleLane (single 7 0xEB 0) ∧ (single 7 0xEB 0).edge = 7 ∧ contOf (single 7 0xEB 0).cfg 0xEB = some 4) :=
  ⟨⟨single_of (by decide), by decide⟩, ⟨single_of (by decide), by decide⟩, ⟨single_of (by decide), by decide⟩⟩

theorem test_witness_OpcodeCapture : SingleLane (single 7 0x6B 0) ∧ (single 7 0x6B 0).edge = 7 :=
  ⟨single_of (by decide), rfl⟩

theorem test_witness_ContinuationDetect :
    (let s := { single 7 0 0 with opcode := some 0xEB }
     SingleLane s ∧ s.edge = 7 ∧ s.opcode = some 0xEB ∧ contOf s.cfg 0xEB = some 4) ∧
    (let s := { single 7 0 0 with opcode := some 0x0B }
     SingleLane s ∧ s.edge = 7 ∧ s.opcode = some 0x0B ∧ contOf s.cfg 0x0B = none) :=
  ⟨⟨single_of (by decide), by decide⟩, ⟨single_of (by decide), by decide⟩⟩

theorem test_witness_QuadLaneShift : (quad 8 0xFF 4).qthr = some 8 ∧ 8 ≤ (quad 8 0xFF 4).edge := by decide

/-- The last byte of the dummy window and the first after it. -/
theorem test_witness_QuadDirection :
    (QuadFlush (quad 19 0xC3 4) ∧ (quad 19 0xC3 4).edge ≤ 15 + 4) ∧
    (QuadFlush (quad 21 0xC3 4) ∧ 15 + 4 < (quad 21 0xC3 4).edge) :=
  ⟨⟨quad_of (by decide), by decide⟩, ⟨quad_of (by decide), by decide⟩⟩

/-- A byte to the host, one to the device, and the mode byte. -/
theorem test_witness_QuadLaneFlush :
    (let s := quad 21 0xC3 4
     QuadFlush s ∧ (15 + s.dummy < s.edge → (0x00 : Byte) = 0x00 ∧ (0xC3 : Byte) = s.accQ) ∧
       (s.edge ≤ 15 + s.dummy → (0x00 : Byte) = s.accQ ∧ (0xC3 : Byte) = 0x00) ∧ ¬ ModeByte s) ∧
    (let s := quad 15 0xA5 4
     QuadFlush s ∧ (15 + s.dummy < s.edge → (0xA5 : Byte) = 0x00 ∧ (0x00 : Byte) = s.accQ) ∧
       (s.edge ≤ 15 + s.dummy → (0xA5 : Byte) = s.accQ ∧ (0x00 : Byte) = 0x00) ∧ ModeByte s) :=
  ⟨⟨quad_of (by decide), by decide, by decide, fun h => absurd h.2.1 (by decide)⟩,
    ⟨quad_of (by decide), by decide, by decide, mode_of (by decide)⟩⟩

theorem test_witness_ModeByteTracked :
    (ModeByte (quad 15 0xA0 4) ∧ 0xA0 ≤ (quad 15 0xA0 4).accQ.toNat ∧ (quad 15 0xA0 4).accQ.toNat ≤ 0xAF) ∧
    (ModeByte (quad 15 0xB0 4) ∧ ¬ (0xA0 ≤ (quad 15 0xB0 4).accQ.toNat ∧ (quad 15 0xB0 4).accQ.toNat ≤ 0xAF)) :=
  ⟨⟨mode_of (by decide), by decide⟩, ⟨mode_of (by decide), by decide⟩⟩

theorem test_witness_EdgeCount :
    EdgeFits (single 0 0 0) ∧
    (let s := { single 15 0 0 with cfg := { defaultConfig with edgeBits := some 4 } }
     s.cfg.edgeBits = some 4 ∧ s.edge + 1 = 2 ^ 4) :=
  ⟨edgeOverflows_eq_false.1 (by decide), by decide⟩

theorem test_witness_RowsOutsideTheirConditionChangeNothing :
    (¬ SingleLane (quad 8 0 4)) ∧ (single 6 0 0).edge % 8 ≠ 7 ∧ (single 15 0 0).edge ≠ 7 ∧ SingleLane (quad 7 0 4) ∧
    ¬ QuadFlush (quad 8 0 4) ∧ ¬ ModeByte (quad 13 0 4) := by
  refine ⟨fun h => absurd (h 8 rfl) (by decide), by decide, by decide, single_of (by decide), fun h => ?_,
    fun h => absurd h.2.1 (by decide)⟩
  exact absurd (qFlushAt_iff.2 h) (by decide)

theorem test_witness_StepsAndCommandsOutsideTheirConditionChangeNothing :
    (Accepts late 141 ∧ Instr.stepActive 0 141 ≠ selectStep late 0 141) ∧
    (late.burstOpen = false ∧ State.reset.lastTs = none ∧ (opened [0xB7]).h2d.head? ≠ some 0x03) :=
  ⟨⟨accepts_of (by decide), by decide⟩, by decide⟩

theorem test_witness_PushOrCountOrphan : (opened []).burstOpen = true ∧ late.burstOpen = false := by decide

/-- With the trace notation's words, and with the lanes moved to bits 8 and 9. -/
theorem test_witness_SingleLaneRoundTrip :
    (let s := single 0 0 0
     s.burstOpen = true ∧ s.h2d = [] ∧ s.d2h = [] ∧ s.edge = 0 ∧ s.qthr = none ∧ s.cfg.edgeBits = none ∧
       contOf s.cfg 0x03 = none) ∧
    List.Forall₂ (fun ws hd => CarriesByte defaultConfig ws hd.1 hd.2)
      [(List.range 8).map (slWord 0x03 0xFF), (List.range 8).map (slWord 0xC3 0)] [(0x03, 0xFF), (0xC3, 0)] ∧
    List.Forall₂ (fun ws hd => CarriesByte moved ws hd.1 hd.2)
      [[0x200, 0x200, 0x200, 0x200, 0x200, 0x200, 0x300, 0x300]] [((0x03 : Byte), (0xFF : Byte))] :=
  ⟨by decide, .cons (slWord_carries _ _ rfl rfl) (.cons (slWord_carries _ _ rfl rfl) .nil),
    .cons ⟨by decide, by decide⟩ .nil⟩

/-- The mode byte, k = 3, and the first byte after the window of four clocks, k = 6. -/
theorem test_witness_QuadBytePosition :
    (let s := { quad 14 0 4 with h2d := [0x6B, 1, 2, 3], d2h := [0, 0, 0, 0] }
     s.burstOpen = true ∧ s.qthr = some 8 ∧ s.edge = 8 + 2 * 3 ∧ s.h2d.length = 1 + 3 ∧ s.d2h.length = 1 + 3 ∧
       s.cfg.edgeBits = none ∧ (0xA5 : Byte) = nibble s.cfg 0xA ++ nibble s.cfg 0x5 ∧ 9 + 2 * 3 ≤ 15 + s.dummy) ∧
    (contOf defaultConfig 0x6B ≠ none) ∧
    (let s := { quad 20 0 4 with h2d := [0x6B, 1, 2, 3, 0, 0, 0], d2h := [0, 0, 0, 0, 0, 0, 0] }
     s.edge = 8 + 2 * 6 ∧ s.h2d.length = 1 + 6 ∧ s.d2h.length = 1 + 6 ∧ 15 + s.dummy < 9 + 2 * 6) := by decide

/-- A truncated burst, one that the address filter drops, and one that passes. -/
theorem test_witness_DataRowsResolveTheBurst :
    (let s := burst { defaultConfig with addrMin := 0x1000 } 3 [0x03, 0, 0]
     s.burstOpen = true ∧ s.lastTs = some 0 ∧ s.h2d = 0x03 :: [0, 0] ∧ s.d2h = 0 :: [0, 0] ∧
       dataOf s.cfg 0x03 = some ⟨.given "Read", 0⟩ ∧ [(0 : Byte), 0].length < s.addrw) ∧
    (let s := burst { defaultConfig with addrMin := 0x1000 } 3 [0x03, 0, 0x0F, 0xFF]
     s.addrw ≤ [(0 : Byte), 0x0F, 0xFF].length ∧ addrPass s.cfg (bigEndian ([0, 0x0F, 0xFF].take s.addrw)) = false) ∧
    (let s := burst { defaultConfig with addrMin := 0x1000 } 3 [0x03, 0, 0x10, 0]
     s.addrw ≤ [(0 : Byte), 0x10, 0].length ∧ addrPass s.cfg (bigEndian ([0, 0x10, 0].take s.addrw)) = true) ∧
    defaultConfig.cmdtab = refCmdTab := by decide

theorem test_witness_WidthSwitchRows :
    (let s := burst defaultConfig 3 [0xB7]
     admitted s.cfg = true ∧ s.burstOpen = true ∧ s.lastTs = some 0 ∧ s.d2h = 0 :: [] ∧ s.h2d = s.cfg.cmdtab.en4b :: []) ∧
    (let s := burst defaultConfig 4 [0xE9, 0x55]
     admitted s.cfg = true ∧ s.burstOpen = true ∧ s.lastTs = some 0 ∧ s.d2h = 0 :: [0] ∧
       s.h2d = s.cfg.cmdtab.ex4b :: [0x55]) := by decide

theorem test_witness_UnknownRow :
    let s := burst defaultConfig 3 [0x9F]
    s.burstOpen = true ∧ s.lastTs = some 0 ∧ s.h2d = 0x9F :: [] ∧ s.d2h = 0 :: [] ∧ dataOf s.cfg 0x9F = none ∧
      ctrlOf s.cfg 0x9F = none := by decide

/-- Both switches, and a third control opcode. -/
theorem test_witness_ControlBranch :
    (∀ op ∈ [(0xB7 : Byte), 0xE9], dataOf defaultConfig op = none ∧ (ctrlOf defaultConfig op).isSome = true) ∧
    (let c := { defaultConfig with cmdtab := { refCmdTab with ctrl := [(0x06, .given "WREN"), (0xB7, .openParam .nameEn4b), (0xE9, .openParam .nameEx4b)] } }
     dataOf c 0x06 = none ∧ ctrlOf c 0x06 = some (.given "WREN") ∧ (0x06 : Byte) ≠ c.cmdtab.en4b ∧
       (0x06 : Byte) ≠ c.cmdtab.ex4b ∧ c.cmdtab.en4b ≠ c.cmdtab.ex4b) := by decide

theorem test_witness_TruncatedDataCommand :
    dataOf defaultConfig 0x03 = some ⟨.given "Read", 0⟩ ∧ (0x03 :: [(0 : Byte), 0]).length < 1 + 3 := by decide

theorem test_witness_EmptyBurstDiscarded : (opened []).burstOpen = true ∧ (opened []).h2d = [] := by decide

theorem test_witness_AddressIsBigEndian : [(0xFF : Byte), 0xFF, 0xFF, 0xFF].length = 4 ∧ ([] : List Byte).length = 0 := by
  decide

theorem test_witness_HeaderIdentities :
    defaultConfig.cmdtab = refCmdTab ∧ defaultConfig.level = .everything ∧ defaultConfig.addrMin = 0 ∧
    defaultConfig.addrMax = none ∧
    ((0x0B : Byte), 1) ∈ [((0x0B : Byte), 1), (0xEB, 2), (0x6B, 2)] ∧
    ((0x0B : Byte) :: [0, 0x10, 0, 0xFF, 1, 2, 3, 4, 5]).length = 3 + 2 + 1 + 4 := by decide

/-- An address that the filter drops, and one that passes, with the shortest burst that is not truncated. -/
theorem test_witness_DataBranch :
    let c := { defaultConfig with addrMin := 0x1000 }
    dataOf c 0x03 = some ⟨.given "Read", 0⟩ ∧ 3 ≤ [(0 : Byte), 0x10, 0].length ∧
    0x1000 = bigEndian ([(0 : Byte), 0x10, 0].take 3) ∧ (-1 : Int) = (3 + 1 : Int) - (3 + 2 + 0) ∧
    addrPass c 0x1000 = true ∧ 0x0FFF = bigEndian ([(0 : Byte), 0x0F, 0xFF].take 3) ∧ addrPass c 0x0FFF = false := by
  decide

theorem test_witness_AddressFilter :
    dataOf defaultConfig 0x9F = none ∧ [(0 : Byte), 0].length < 3 := by decide

theorem test_witness_OnlyTheTrackerWritesTheFlag :
    ∃ s', exec (.stepActive 0x5 110) (quad 15 0x0A 4) = .next s' ∧ s'.cont = true :=
  exists_next (f := fun s => s.cont) (by decide)

theorem test_witness_OnlyTheClassifierWritesTheWidth :
    (∃ s', exec .en4b (opened [0xB7]) = .next s' ∧ s'.addrw = 4) ∧ (opened [0xB7]).addrw = 3 :=
  ⟨exists_next (f := fun s => s.addrw) (by decide), rfl⟩

theorem test_witness_ConfigurationIsReadOnly :
    (∃ s', exec (.stepStartFresh 0 141) late = .next s' ∧ s'.edge = 1) ∧ ∃ s', step midBurst = .next s' ∧ s'.edge = 15 :=
  ⟨exists_next (f := fun s => s.edge) (by decide), exists_next (f := fun s => s.edge) (by decide)⟩

/-- An idle sample, a gap equal to the threshold, and the two starts just above it. -/
theorem test_witness_CountersOfAStep :
    (∃ s', step (late.deliver ⟨0x8000, 110⟩) = .next s' ∧ s'.edge = 0) ∧
    ((∃ s', step (late.deliver ⟨0, 140⟩) = .next s' ∧ s'.edge = 1) ∧ gap late 140 ≤ late.gapThr) ∧
    ((∃ s', step (late.deliver ⟨0, 141⟩) = .next s' ∧ s'.edge = 1) ∧ late.gapThr < gap late 141 ∧ late.cont = false) ∧
    ((∃ s', step (b12.deliver ⟨3, 1041⟩) = .next s' ∧ s'.edge = 9) ∧ b12.gapThr < gap b12 1041 ∧ b12.cont = true) :=
  ⟨exists_next (f := fun s => s.edge) (by decide), ⟨exists_next (f := fun s => s.edge) (by decide), by decide⟩,
    ⟨exists_next (f := fun s => s.edge) (by decide), by decide⟩,
    ⟨exists_next (f := fun s => s.edge) (by decide), by decide⟩⟩

theorem test_witness_DiagnosticCountersAreNeverRead :
    (∃ s', exec (.stepStartFresh 0 141) late = .next s' ∧ s'.txnCount = 1) ∧
      reason (exec (.stepActive 0 99) late) = some .timestampDecreased :=
  ⟨exists_next (f := fun s => s.txnCount) (by decide), by decide⟩

/-- A Read cut off after one address byte, at a gap just above the threshold, and the acceptance of a next sample. -/
def cutOff : State :=
  { opened [0x03, 0x00] with qthr := none, opcode := some 0x03, edge := 16, input := [⟨0, 141⟩] }

theorem test_cutOff_inv : RunInv cutOff where
  sameLength := rfl
  closedIsEmpty := fun h => by cases h
  contKeepsOpcode := fun h => by cases h
  thresholdBound := by decide
  quadThreshold := .inl rfl
  quadHasOpcode := fun h => absurd rfl h
  widthLegal := by decide
  openAfterSample := fun _ => by decide
  openIffStarted := by decide
  lengthAccounting := fun _ => ⟨fun _ => rfl, fun h => absurd rfl h⟩

theorem test_witness_AnErrorNeverStopsTheBlock :
    RunInv cutOff ∧ cutOff.input = ⟨0, 141⟩ :: [] ∧ Accepts cutOff 141 ∧ cutOff.cfg.edgeBits = none ∧
    (0 : Word).getLsbD defaultConfig.csBit = false ∧ cutOff.gapThr < gap cutOff 141 ∧ cutOff.burstOpen = true ∧
    cutOff.h2d = 0x03 :: [0x00] ∧ dataOf cutOff.cfg 0x03 = some ⟨.given "Read", 0⟩ ∧ [(0x00 : Byte)].length < cutOff.addrw ∧
    (∃ s', step cutOff = .next s' ∧ sampleRefusal s' 141 = none) :=
  ⟨test_cutOff_inv, rfl, accepts_of (by decide), rfl, by decide, by decide, rfl, rfl, by decide, by decide,
    exists_next (f := fun s => sampleRefusal s 141) (by decide)⟩

/-- The record of the step that ends the cut-off Read (K3's row of the classifier, through a start). -/
theorem test_error_record_and_on :
    got (step cutOff) (fun s => (s.out, s.edge)) = some (some (.error 0x03 3 50 100), 1) := by decide

end Sys2Proof.Tests
end

section
/-! SUPPORT. What the rows of the lane assembler keep: the frame of one row, of their sequence, and of the assembler. -/

namespace Sys2Proof.Machine

/-- What a row of an active step keeps, EDGE.INC apart: the burst's boundary, the edge, the clock, the ports and the
configuration; the byte sequences of a closed burst, the orphan counter while a burst is open, and the opcode with the
lane mode at any edge but 7 (41_lane_assembler.md R130, R134, R141). -/
structure LaneFrame (s s' : State) : Prop where
  gapThr : s'.gapThr = s.gapThr
  lastTs : s'.lastTs = s.lastTs
  burstOpen : s'.burstOpen = s.burstOpen
  bStartTs : s'.bStartTs = s.bStartTs
  edge : s'.edge = s.edge
  addrw : s'.addrw = s.addrw
  txnCount : s'.txnCount = s.txnCount
  cfg : s'.cfg = s.cfg
  cfg0 : s'.cfg0 = s.cfg0
  input : s'.input = s.input
  out : s'.out = s.out
  closedSequences : s.burstOpen = false → s'.h2d = s.h2d ∧ s'.d2h = s.d2h
  openOrphans : s.burstOpen = true → s'.orphanCount = s.orphanCount
  laneMode : s.edge ≠ 7 → s'.opcode = s.opcode ∧ s'.qthr = s.qthr ∧ s'.dummy = s.dummy

theorem LaneFrame.refl (s : State) : LaneFrame s s := by
  constructor <;> simp

theorem LaneFrame.trans {s s1 s2 : State} (h : LaneFrame s s1) (h' : LaneFrame s1 s2) : LaneFrame s s2 where
  gapThr := h'.gapThr.trans h.gapThr
  lastTs := h'.lastTs.trans h.lastTs
  burstOpen := h'.burstOpen.trans h.burstOpen
  bStartTs := h'.bStartTs.trans h.bStartTs
  edge := h'.edge.trans h.edge
  addrw := h'.addrw.trans h.addrw
  txnCount := h'.txnCount.trans h.txnCount
  cfg := h'.cfg.trans h.cfg
  cfg0 := h'.cfg0.trans h.cfg0
  input := h'.input.trans h.input
  out := h'.out.trans h.out
  closedSequences hb := by
    obtain ⟨hh, hd⟩ := h.closedSequences hb
    obtain ⟨hh', hd'⟩ := h'.closedSequences (h.burstOpen.trans hb)
    exact ⟨hh'.trans hh, hd'.trans hd⟩
  openOrphans hb := (h'.openOrphans (h.burstOpen.trans hb)).trans (h.openOrphans hb)
  laneMode he := by
    obtain ⟨ho, hq, hd⟩ := h.laneMode he
    obtain ⟨ho', hq', hd'⟩ := h'.laneMode (h.edge ▸ he)
    exact ⟨ho'.trans ho, hq'.trans hq, hd'.trans hd⟩

/-! ### The operations that the rows are made of -/

theorem push_laneFrame (h d : Byte) (s : State) : LaneFrame s (push h d s) := by
  constructor <;> simp +contextual [push_h2d, push_d2h, push_orphanCount]

theorem shiftLanes_laneFrame (w : Word) (s : State) : LaneFrame s (shiftLanes w s) := by
  constructor <;> simp

theorem clearLanes_laneFrame (s : State) : LaneFrame s (clearLanes s) := by
  constructor <;> simp

theorem shiftNibble_laneFrame (w : Word) (s : State) : LaneFrame s (shiftNibble w s) := by
  constructor <;> simp

theorem clearNibble_laneFrame (s : State) : LaneFrame s (clearNibble s) := by
  constructor <;> simp

theorem setCont_laneFrame (b : Bool) (s : State) : LaneFrame s (setCont b s) := by
  constructor <;> simp

theorem captureOpcode_laneFrame {s : State} (he : s.edge = 7) (b : Byte) : LaneFrame s (captureOpcode b s) := by
  constructor <;> simp [he]

theorem switchToQuad_laneFrame {s : State} (he : s.edge = 7) (d : Nat) : LaneFrame s (switchToQuad d s) := by
  constructor <;> simp [he]

/-! ### The rows -/

/-- The outcome is a next state, and it keeps the frame of a row. -/
def LaneKeeps (s : State) (o : Host.Outcome State Fault Refusal) : Prop :=
  ∃ s', o = .next s' ∧ LaneFrame s s'

theorem LaneFrame.next {s s' : State} (h : LaneFrame s s') : LaneKeeps s (.next s') := ⟨s', rfl, h⟩

theorem LaneKeeps.same (s : State) : LaneKeeps s (.next s) := (LaneFrame.refl s).next

theorem LaneKeeps.frame {s s' : State} {o : Host.Outcome State Fault Refusal} (h : LaneKeeps s o) (ho : o = .next s') :
    LaneFrame s s' := by
  obtain ⟨s1, h1, hf⟩ := h
  cases h1.symm.trans ho
  exact hf

/-- Rows in sequence keep what each of them keeps. -/
theorem LaneKeeps.andThen {s : State} {o : Host.Outcome State Fault Refusal}
    {f : State → Host.Outcome State Fault Refusal} (h : LaneKeeps s o) (hf : ∀ s1, LaneKeeps s1 (f s1)) :
    LaneKeeps s (andThen o f) := by
  obtain ⟨s1, rfl, h1⟩ := h
  obtain ⟨s2, h2, h12⟩ := hf s1
  exact ⟨s2, h2, h1.trans h12⟩

theorem execSlShift_keeps (w : Word) (s : State) : LaneKeeps s (execSlShift w s) := by
  unfold execSlShift
  split
  · exact .same s
  · exact (shiftLanes_laneFrame w s).next

theorem execSlOpcode_keeps (w : Word) (s : State) : LaneKeeps s (execSlOpcode w s) := by
  unfold execSlOpcode
  split
  next h => exact (captureOpcode_laneFrame (slOpcodeAt_iff.1 h).2 _).next
  next => exact .same s

theorem execSlContDetect_keeps (w : Word) (s : State) : LaneKeeps s (execSlContDetect w s) := by
  unfold execSlContDetect
  split
  next h =>
    split
    · exact (switchToQuad_laneFrame (slOpcodeAt_iff.1 h).2 _).next
    · exact .same s
  next => exact .same s

theorem execSlFlush_keeps (w : Word) (s : State) : LaneKeeps s (execSlFlush w s) := by
  unfold execSlFlush
  split
  · have hop : LaneKeeps s (execSlOpcode w (push s.accHo s.accDi s)) :=
      (push_laneFrame _ _ s).next.andThen (execSlOpcode_keeps w)
    exact hop.andThen fun s1 => (execSlContDetect_keeps w s1).andThen fun s2 => (clearLanes_laneFrame s2).next
  · exact .same s

theorem execQShift_keeps (w : Word) (s : State) : LaneKeeps s (execQShift w s) := by
  unfold execQShift
  split
  · exact (shiftNibble_laneFrame w s).next
  · exact .same s

theorem execQDirection_keeps (w : Word) (s : State) : LaneKeeps s (execQDirection w s) := by
  unfold execQDirection
  split
  · split <;> exact (push_laneFrame _ _ s).next
  · exact .same s

theorem execTrack_keeps (w : Word) (s : State) : LaneKeeps s (execTrack w s) := by
  unfold execTrack
  split
  · exact (setCont_laneFrame _ s).next
  · exact .same s

theorem execQMode_keeps (w : Word) (s : State) : LaneKeeps s (execQMode w s) := by
  unfold execQMode
  split
  · exact execTrack_keeps w s
  · exact .same s

theorem execQFlush_keeps (w : Word) (s : State) : LaneKeeps s (execQFlush w s) := by
  unfold execQFlush
  split
  · exact (execQDirection_keeps w s).andThen fun s1 =>
      (execQMode_keeps w s1).andThen fun s2 => (clearNibble_laneFrame s2).next
  · exact .same s

/-- The rows of the lane assembler but for EDGE.INC, with the tracker's. -/
abbrev laneRows (w : Word) : List Instr :=
  [.slShift w, .slFlush w, .slOpcode w, .slContDetect w, .qShift w, .qFlush w, .qDirection w, .qMode w, .track w]

theorem exec_laneRow_keeps {i : Instr} {w : Word} (hi : i ∈ laneRows w) (s : State) : LaneKeeps s (exec i s) := by
  simp only [List.mem_cons, List.not_mem_nil, or_false] at hi
  obtain rfl | rfl | rfl | rfl | rfl | rfl | rfl | rfl | rfl := hi
  · exact execSlShift_keeps w s
  · exact execSlFlush_keeps w s
  · exact execSlOpcode_keeps w s
  · exact execSlContDetect_keeps w s
  · exact execQShift_keeps w s
  · exact execQFlush_keeps w s
  · exact execQDirection_keeps w s
  · exact execQMode_keeps w s
  · exact execTrack_keeps w s

/-! ### The edge counter and the assembler -/

theorem execEdgeInc_of_not_fits {w : Word} {s : State} (h : ¬ EdgeFits s) :
    execEdgeInc w s = .refused .edgeOverflow := by
  have ho : edgeOverflows s = true := by
    rw [← Bool.not_eq_false]; exact fun hc => h (edgeOverflows_eq_false.1 hc)
  simp [execEdgeInc, ho]

theorem execEdgeInc_eq_next {w : Word} {s s' : State} :
    execEdgeInc w s = .next s' ↔ EdgeFits s ∧ s' = countEdge s := by
  by_cases h : EdgeFits s
  · simp [execEdgeInc_of_fits h, h, eq_comm]
  · simp [execEdgeInc_of_not_fits h, h]

/-- The edge counter's test reads nothing that the rows before it write. -/
theorem LaneFrame.edgeFits {s s1 : State} (h : LaneFrame s s1) : EdgeFits s1 ↔ EdgeFits s := by
  simp only [EdgeFits, h.edge, h.cfg]

/-- The assembler is its nine rows, which keep their frame, and then the edge counter. -/
theorem assemble_frame (w : Word) (s : State) : ∃ s1, LaneFrame s s1 ∧ assemble w s = execEdgeInc w s1 := by
  obtain ⟨s1, h1, f1⟩ := execSlShift_keeps w s
  obtain ⟨s2, h2, f2⟩ := execSlFlush_keeps w s1
  obtain ⟨s3, h3, f3⟩ := execQShift_keeps w s2
  obtain ⟨s4, h4, f4⟩ := execQFlush_keeps w s3
  exact ⟨s4, ((f1.trans f2).trans f3).trans f4, by simp only [assemble, h1, h2, h3, h4, andThen_next]⟩

theorem assemble_of_not_fits {w : Word} {s : State} (h : ¬ EdgeFits s) : assemble w s = .refused .edgeOverflow := by
  obtain ⟨s1, f, h1⟩ := assemble_frame w s
  rw [h1, execEdgeInc_of_not_fits (mt f.edgeFits.1 h)]

theorem assemble_of_fits {w : Word} {s : State} (h : EdgeFits s) :
    ∃ s1, LaneFrame s s1 ∧ assemble w s = .next (countEdge s1) := by
  obtain ⟨s1, f, h1⟩ := assemble_frame w s
  exact ⟨s1, f, by rw [h1, execEdgeInc_of_fits (f.edgeFits.2 h)]⟩

theorem assemble_eq_next {w : Word} {s s' : State} (h : assemble w s = .next s') :
    EdgeFits s ∧ ∃ s1, LaneFrame s s1 ∧ s' = countEdge s1 := by
  obtain ⟨s1, f, h1⟩ := assemble_frame w s
  obtain ⟨hfit, hs'⟩ := execEdgeInc_eq_next.1 (h1.symm.trans h)
  exact ⟨f.edgeFits.1 hfit, s1, f, hs'⟩

/-- Away from every eighth edge a single-lane sample is shifted in and counted, no more. -/
theorem assemble_singleLane_noFlush {w : Word} {s : State} (hs : SingleLane s) (he : s.edge % 8 ≠ 7) :
    assemble w s = execEdgeInc w (shiftLanes w s) := by
  have hf : slFlushAt (shiftLanes w s) = false := by
    rw [Bool.eq_false_iff]
    exact fun hc => he (slFlushAt_iff.1 hc).2
  simp [assemble_singleLane hs, execSlFlush, hf]

/-- On every first quad edge of a byte the sample is shifted in and counted, no more. -/
theorem assemble_quad_noFlush {w : Word} {s : State} {q : Nat} (hq : s.qthr = some q) (hle : q ≤ s.edge)
    (he : (s.edge - q) % 2 = 0) : assemble w s = execEdgeInc w (shiftNibble w s) := by
  have hf : qFlushAt (shiftNibble w s) = false := by simp [qFlushAt, hq, he]
  simp [assemble_quadPhase (quadPhase_eq_true.2 ⟨q, hq, hle⟩), execQFlush, hf]

theorem nine_ne_two_pow (k : Nat) : 9 ≠ 2 ^ k := by
  cases k with
  | zero => decide
  | succ k => rw [Nat.pow_succ]; omega

theorem shiftBit_zero (b : Bool) : shiftBit 0#8 b = BitVec.ofNat 8 b.toNat := by
  cases b <;> decide

end Sys2Proof.Machine
end

section
/-! SUPPORT. The four whole steps: which one a sample is, what each does once its sample is accepted, and that the one
selected is the pseudocode of 40_boundary.md R100. -/

namespace Sys2Proof.Machine

/-! ### Which whole step a sample is -/

/-- The whole step that a sample is, by chip select, by the gap against the tightened threshold, and by the flag. -/
theorem selectStep_cases (s : State) (w : Word) (t : Nat) :
    (w.getLsbD s.cfg.csBit = true ∧ selectStep s w t = .stepIdle w t) ∨
    (w.getLsbD s.cfg.csBit = false ∧ gap s t ≤ tightened s t ∧ selectStep s w t = .stepActive w t) ∨
    (w.getLsbD s.cfg.csBit = false ∧ tightened s t < gap s t ∧ s.cont = false ∧
      selectStep s w t = .stepStartFresh w t) ∨
    (w.getLsbD s.cfg.csBit = false ∧ tightened s t < gap s t ∧ s.cont = true ∧
      selectStep s w t = .stepStartCont w t) := by
  cases hcs : w.getLsbD s.cfg.csBit with
  | true => simp [selectStep, csHigh, hcs]
  | false =>
    obtain hg | hg := le_or_gt (gap s t) (tightened s t)
    · simp [selectStep, startsBurst, csHigh, hcs, hg]
    · cases hc : s.cont <;> simp [selectStep, startsBurst, csHigh, hcs, hg, hc]

theorem selectStep_of_csHigh {s : State} {w : Word} {t : Nat} (h : csHigh s.cfg w = true) :
    selectStep s w t = .stepIdle w t := by
  simp [selectStep, h]

theorem selectStep_of_activeSample {s : State} {w : Word} {t : Nat} (h : activeSample s w t = true) :
    selectStep s w t = .stepActive w t := by
  simp only [activeSample, Bool.and_eq_true, Bool.not_eq_true', decide_eq_true_eq] at h
  simp [selectStep, startsBurst, h]

theorem startsBurst_csLow {s : State} {w : Word} {t : Nat} (h : startsBurst s w t = true) : csHigh s.cfg w = false := by
  simp only [startsBurst, Bool.and_eq_true, Bool.not_eq_true'] at h
  exact h.1

theorem selectStep_of_freshSample {s : State} {w : Word} {t : Nat} (h : freshSample s w t = true) :
    selectStep s w t = .stepStartFresh w t := by
  simp only [freshSample, Bool.and_eq_true, Bool.not_eq_true'] at h
  simp [selectStep, h, startsBurst_csLow h.1]

theorem selectStep_of_contSample {s : State} {w : Word} {t : Nat} (h : contSample s w t = true) :
    selectStep s w t = .stepStartCont w t := by
  simp only [contSample, Bool.and_eq_true] at h
  simp [selectStep, h, startsBurst_csLow h.1]

/-- The four whole steps on one sample. -/
abbrev wholeSteps (w : Word) (t : Nat) : List Instr :=
  [.stepIdle w t, .stepActive w t, .stepStartFresh w t, .stepStartCont w t]

theorem selectStep_mem_wholeSteps (s : State) (w : Word) (t : Nat) : selectStep s w t ∈ wholeSteps w t := by
  obtain ⟨-, h⟩ | ⟨-, -, h⟩ | ⟨-, -, -, h⟩ | ⟨-, -, -, h⟩ := selectStep_cases s w t <;> simp [h]

/-! ### Refusals -/

/-- The first sample's gap is the threshold, so a gap above the tightened one needs a sample before. -/
theorem exists_lastTs_of_tightened_lt {s : State} {t : Nat} (h : tightened s t < gap s t) :
    ∃ p, s.lastTs = some p := by
  cases hl : s.lastTs with
  | some p => exact ⟨p, rfl⟩
  | none =>
    simp only [tightened, gap, hl, gapFactor] at h
    omega

theorem sampleRefusal_timestampDecreased {s : State} {t p : Nat} (ha : admitted s.cfg = true) (hc : s.cfg = s.cfg0)
    (hf : ∀ k, s.cfg.tsBits = some k → t < 2 ^ k) (hp : s.lastTs = some p) (hlt : t < p) :
    sampleRefusal s t = some .timestampDecreased := by
  have ho : tsInOrder s t = false := by simpa [tsInOrder, hp] using hlt
  simp [sampleRefusal, runRefusal_eq_none.2 ⟨ha, hc⟩, tsFits_iff.2 hf, ho]

/-- A refused sample refuses every whole step, for the sample's reason. -/
theorem exec_wholeStep_refused {i : Instr} {s : State} {w : Word} {t : Nat} {r : Refusal} (hi : i ∈ wholeSteps w t)
    (h : sampleRefusal s t = some r) : exec i s = .refused r := by
  have hk : ∀ k, admitSample t s k = .refused r := fun k => by simp [admitSample, h]
  simp only [List.mem_cons, List.not_mem_nil, or_false] at hi
  obtain rfl | rfl | rfl | rfl := hi <;>
    simp only [exec, execStepIdle, execStepActive, execStepStartFresh, execStepStartCont, hk]

/-- A whole step that answers a next state was given an accepted sample. -/
theorem accepts_of_exec_wholeStep {i : Instr} {s s' : State} {w : Word} {t : Nat} (hi : i ∈ wholeSteps w t)
    (h : exec i s = .next s') : Accepts s t := by
  rw [← sampleRefusal_eq_none]
  cases hr : sampleRefusal s t with
  | none => rfl
  | some r => rw [exec_wholeStep_refused hi hr] at h; cases h

/-! ### The implicit end and the starts -/

/-- What the implicit end offers: the record and the address width (40_boundary.md R105). -/
def endOfBurst (s : State) : Option Record × Nat :=
  if s.burstOpen then classify s.cfg s.addrw s.h2d s.d2h s.bStartTs (s.lastTs.getD 0) else (none, s.addrw)

theorem implicitEnd_tighten {s : State} {t p : Nat} (hp : s.lastTs = some p) :
    implicitEnd (tighten t s) = .next (setResult (endOfBurst s).1 (endOfBurst s).2 (tighten t s)) := by
  cases hb : s.burstOpen with
  | true =>
    rw [implicitEnd_open (s := tighten t s) hp hb rfl]
    simp [classifyBurst, endOfBurst, hb, hp]
  | false =>
    rw [implicitEnd_closed (s := tighten t s) hb]
    simp only [endOfBurst, hb, Bool.false_eq_true, if_false]
    rfl

/-- The state in which a start has ended the open burst and opened the next one (40_boundary.md R103, R105, R106). -/
def nextBurst (t : Nat) (s : State) : State :=
  openBurst t (setResult (endOfBurst s).1 (endOfBurst s).2 (tighten t s))

/-! ### What each whole step does -/

theorem exec_stepIdle {s : State} {w : Word} {t : Nat} (ha : Accepts s t) (hcs : w.getLsbD s.cfg.csBit = true) :
    exec (.stepIdle w t) s = .next (stamp t (tighten t s)) := by
  simp [exec, execStepIdle, admitSample_of_accepts ha, csHigh, hcs]

theorem exec_stepActive {s : State} {w : Word} {t : Nat} (ha : Accepts s t) (hcs : w.getLsbD s.cfg.csBit = false)
    (hg : gap s t ≤ tightened s t) : exec (.stepActive w t) s = assemble w (stamp t (tighten t s)) := by
  simp [exec, execStepActive, admitSample_of_accepts ha, activeSample, csHigh, hcs, hg]

theorem exec_stepStartFresh {s : State} {w : Word} {t : Nat} (ha : Accepts s t) (hcs : w.getLsbD s.cfg.csBit = false)
    (hg : tightened s t < gap s t) (hc : s.cont = false) :
    exec (.stepStartFresh w t) s = assemble w (stamp t (freshStart (nextBurst t s))) := by
  obtain ⟨p, hp⟩ := exists_lastTs_of_tightened_lt hg
  simp [exec, execStepStartFresh, admitSample_of_accepts ha, freshSample, startsBurst, csHigh, hcs, hg, hc,
    implicitEnd_tighten hp, nextBurst]

theorem exec_stepStartCont {s : State} {w : Word} {t : Nat} (ha : Accepts s t) (hcs : w.getLsbD s.cfg.csBit = false)
    (hg : tightened s t < gap s t) (hc : s.cont = true) :
    exec (.stepStartCont w t) s = andThen (contStart (nextBurst t s)) fun s2 => assemble w (stamp t s2) := by
  obtain ⟨p, hp⟩ := exists_lastTs_of_tightened_lt hg
  simp [exec, execStepStartCont, admitSample_of_accepts ha, contSample, startsBurst, csHigh, hcs, hg, hc,
    implicitEnd_tighten hp, nextBurst]

theorem contStart_of_opcode {s : State} {c : Byte} (h : s.opcode = some c) :
    contStart s = .next (push c 0x00 (preseed s)) := by
  simp [contStart, h]

theorem contStart_of_no_opcode {s : State} (h : s.opcode = none) : contStart s = .refused .noPreviousOpcode := by
  simp [contStart, h]

/-! ### The first sample of a burst -/

/-- The sample of a fresh start is edge 0 of the single-lane phase, where nothing is flushed (40_boundary.md R112). -/
theorem assemble_freshStart {w : Word} {t : Nat} {s : State} (he : s.edge = 0) (hbits : s.cfg.edgeBits ≠ some 0) :
    assemble w (stamp t (freshStart s)) = .next (countEdge (shiftLanes w (stamp t (freshStart s)))) := by
  have hlane : SingleLane (stamp t (freshStart s)) := fun q hq => by cases hq
  have hfit : EdgeFits (shiftLanes w (stamp t (freshStart s))) := by
    intro k hk h1
    have hk0 : k = 0 := by simpa [he] using h1.symm
    exact hbits (hk0 ▸ hk)
  rw [assemble_singleLane_noFlush hlane (by simp [he]), execEdgeInc_of_fits hfit]

/-- The sample of a continuous start is edge 8, the first quad edge, where nothing is flushed; and 9, the count after
it, overflows no counter (40_boundary.md R108, R113). -/
theorem contStart_assemble {w : Word} {t : Nat} {s : State} {c : Byte} (ho : s.opcode = some c)
    (hq : s.qthr = some 8) : (andThen (contStart s) fun s2 => assemble w (stamp t s2)) =
      .next (countEdge (shiftNibble w (stamp t (push c 0x00 (preseed s))))) := by
  have hedge : (stamp t (push c 0x00 (preseed s))).edge = 8 := by simp [contPreseed]
  have hfit : EdgeFits (shiftNibble w (stamp t (push c 0x00 (preseed s)))) := by
    intro k _
    simpa [contPreseed] using nine_ne_two_pow k
  rw [contStart_of_opcode ho, andThen_next, assemble_quad_noFlush (by simpa using hq) hedge.ge (by rw [hedge]),
    execEdgeInc_of_fits hfit]

/-! ### The pseudocode, case by case -/

theorem pseudoStep_idle {s : State} {w : Word} (t : Nat) (hcs : w.getLsbD s.cfg.csBit = true) :
    pseudoStep w t s = .next (stamp t (tighten t s)) := by
  simp only [pseudoStep, hcs, Bool.true_eq_false, and_false, if_false, if_true]
  rfl

theorem pseudoStep_active {s : State} {w : Word} {t : Nat} (hcs : w.getLsbD s.cfg.csBit = false)
    (hg : gap s t ≤ tightened s t) : pseudoStep w t s = assemble w (stamp t (tighten t s)) := by
  rw [assemble_eq_pseudo]
  refine (if_neg fun h => ?_).trans (if_neg (by simp [hcs]))
  exact absurd h.1 (not_lt.2 hg)

theorem pseudoStep_startFresh {s : State} {w : Word} {t : Nat} (hcs : w.getLsbD s.cfg.csBit = false)
    (hg : tightened s t < gap s t) (hc : s.cont = false) :
    pseudoStep w t s = assemble w (stamp t (freshStart (nextBurst t s))) := by
  rw [assemble_eq_pseudo]
  exact (if_pos ⟨hg, hcs⟩).trans (if_neg (by simp [hc]))

theorem pseudoStep_startCont {s : State} {w : Word} {t : Nat} (hcs : w.getLsbD s.cfg.csBit = false)
    (hg : tightened s t < gap s t) (hc : s.cont = true) :
    pseudoStep w t s = andThen (contStart (nextBurst t s)) fun s2 => assemble w (stamp t s2) := by
  simp only [assemble_eq_pseudo]
  refine (if_pos ⟨hg, hcs⟩).trans ((if_pos hc).trans ?_)
  split
  next c ho => rw [contStart_of_opcode (s := nextBurst t s) ho]; rfl
  next ho => rw [contStart_of_no_opcode (s := nextBurst t s) ho]; rfl

/-- The whole step that an accepted sample is, built from the table's rows, is the pseudocode. -/
theorem exec_selectStep {s : State} {w : Word} {t : Nat} (ha : Accepts s t) :
    exec (selectStep s w t) s = pseudoStep w t s := by
  obtain ⟨hcs, h⟩ | ⟨hcs, hg, h⟩ | ⟨hcs, hg, hc, h⟩ | ⟨hcs, hg, hc, h⟩ := selectStep_cases s w t
  · rw [h, exec_stepIdle ha hcs, pseudoStep_idle t hcs]
  · rw [h, exec_stepActive ha hcs hg, pseudoStep_active hcs hg]
  · rw [h, exec_stepStartFresh ha hcs hg hc, pseudoStep_startFresh hcs hg hc]
  · rw [h, exec_stepStartCont ha hcs hg hc, pseudoStep_startCont hcs hg hc]

/-- A whole step that the sample is not changes nothing (log 11). -/
theorem exec_wholeStep_not_selected {i : Instr} {s : State} {w : Word} {t : Nat} (ha : Accepts s t)
    (hi : i ∈ wholeSteps w t) (hne : i ≠ selectStep s w t) : exec i s = .next s := by
  simp only [List.mem_cons, List.not_mem_nil, or_false] at hi
  obtain rfl | rfl | rfl | rfl := hi
  · simp [exec, execStepIdle, admitSample_of_accepts ha, mt selectStep_of_csHigh hne.symm]
  · simp [exec, execStepActive, admitSample_of_accepts ha, mt selectStep_of_activeSample hne.symm]
  · simp [exec, execStepStartFresh, admitSample_of_accepts ha, mt selectStep_of_freshSample hne.symm]
  · simp [exec, execStepStartCont, admitSample_of_accepts ha, mt selectStep_of_contSample hne.symm]

/-! ### Threshold and timestamp -/

theorem tightened_le (s : State) (t : Nat) : tightened s t ≤ s.gapThr := min_le_right _ _

theorem assemble_keeps_time {w : Word} {s s' : State} (h : assemble w s = .next s') :
    s'.gapThr = s.gapThr ∧ s'.lastTs = s.lastTs := by
  obtain ⟨-, s1, f, rfl⟩ := assemble_eq_next h
  exact ⟨f.gapThr, f.lastTs⟩

/-- Whichever whole step a sample is, it leaves the tightened threshold and the sample's timestamp. -/
theorem pseudoStep_time {s s' : State} {w : Word} {t : Nat} (h : pseudoStep w t s = .next s') :
    s'.gapThr = tightened s t ∧ s'.lastTs = some t := by
  obtain ⟨hcs, -⟩ | ⟨hcs, hg, -⟩ | ⟨hcs, hg, hc, -⟩ | ⟨hcs, hg, hc, -⟩ := selectStep_cases s w t
  · rw [pseudoStep_idle t hcs] at h
    cases h
    exact ⟨rfl, rfl⟩
  · rw [pseudoStep_active hcs hg] at h
    exact assemble_keeps_time h
  · rw [pseudoStep_startFresh hcs hg hc] at h
    exact assemble_keeps_time h
  · rw [pseudoStep_startCont hcs hg hc] at h
    obtain ⟨s2, h2, h⟩ := andThen_eq_next.1 h
    obtain ⟨hthr, hts⟩ := assemble_keeps_time h
    cases ho : s.opcode with
    | none => rw [contStart_of_no_opcode (s := nextBurst t s) ho] at h2; cases h2
    | some c =>
      rw [contStart_of_opcode (s := nextBurst t s) ho] at h2
      cases h2
      exact ⟨hthr.trans (push_gapThr _ _ _), hts⟩

/-- A whole step that answers changes nothing, or tightens the threshold. -/
theorem exec_wholeStep_gapThr_le {i : Instr} {s s' : State} {w : Word} {t : Nat} (hi : i ∈ wholeSteps w t)
    (h : exec i s = .next s') : s'.gapThr ≤ s.gapThr := by
  have ha := accepts_of_exec_wholeStep hi h
  by_cases hsel : i = selectStep s w t
  · rw [hsel, exec_selectStep ha] at h
    exact (pseudoStep_time h).1.trans_le (tightened_le s t)
  · rw [exec_wholeStep_not_selected ha hi hsel] at h
    cases h
    rfl

theorem commandRow_gapThr {op : Byte} {s s' : State} (h : commandRow op s = .next s') : s'.gapThr = s.gapThr := by
  obtain h' | ⟨p, -, -, -, h'⟩ := commandRow_next op s <;> (cases h'.symm.trans h; rfl)

/-- No instruction loosens the threshold (40_boundary.md R119). -/
theorem exec_gapThr_le {i : Instr} {s s' : State} (h : exec i s = .next s') : s'.gapThr ≤ s.gapThr := by
  cases i
  case stepIdle w t | stepActive w t | stepStartFresh w t | stepStartCont w t =>
    exact exec_wholeStep_gapThr_le (w := w) (t := t) (by simp) h
  case slShift w | slFlush w | slOpcode w | slContDetect w | qShift w | qFlush w | qDirection w | qMode w | track w =>
    exact ((exec_laneRow_keeps (w := w) (by simp) s).frame h).gapThr.le
  case edgeInc w =>
    obtain ⟨-, rfl⟩ := (execEdgeInc_eq_next (w := w)).1 h
    rfl
  case read | fastRead | read4b | quadRead6b | quadRead | en4b | ex4b | unknown =>
    exact (commandRow_gapThr h).le

/-! ### The step on a delivered sample -/

theorem step_of_input {s : State} {w : Word} {t : Nat} {rest : List Sample} (h : s.input = ⟨w, t⟩ :: rest) :
    step s = exec (selectStep s w t) { s with input := rest } := by
  simp [step, dropSample, h]

/-- Neither the selection nor the refusals of a sample read the samples that wait behind it. -/
theorem Accepts.withInput {s : State} {t : Nat} (h : Accepts s t) (rest : List Sample) :
    Accepts { s with input := rest } t := ⟨h.1, h.2, h.3, h.4⟩

theorem step_eq_pseudoStep {s : State} {w : Word} {t : Nat} {rest : List Sample} (h : s.input = ⟨w, t⟩ :: rest)
    (ha : Accepts s t) : step s = pseudoStep w t { s with input := rest } :=
  (step_of_input h).trans (exec_selectStep (ha.withInput rest))

theorem accepts_of_step {s s' : State} {w : Word} {t : Nat} {rest : List Sample} (h : s.input = ⟨w, t⟩ :: rest)
    (hs : step s = .next s') : Accepts s t := by
  rw [step_of_input h] at hs
  obtain ⟨ha, hc, hf, ho⟩ := accepts_of_exec_wholeStep (selectStep_mem_wholeSteps s w t) hs
  exact ⟨ha, hc, hf, ho⟩

theorem waitForSample_eq_next {s s' : State} (h : waitForSample s = .next s') : s' = { s with out := none } := by
  unfold waitForSample at h
  split at h <;> cases h
  rfl

end Sys2Proof.Machine
end

section
/-! The statements of 40_boundary.md, each settled from the laws above. -/

namespace Sys2Proof.Machine

/-- Settles O11: the step runs the selected whole step, and each whole step is its branch of the pseudocode. -/
theorem stepIsThePseudocode : Obligations.StepIsThePseudocode := by
  intro s w t rest _ hin
  refine ⟨step_eq_pseudoStep hin, fun ha hc hf p hp hlt => ?_⟩
  rw [step_of_input hin]
  exact exec_wholeStep_refused (selectStep_mem_wholeSteps s w t)
    (sampleRefusal_timestampDecreased (s := { s with input := rest }) ha hc hf hp hlt)

/-- Settles O15, by the four cases of the selection. -/
theorem startCondition : Obligations.StartCondition := by
  intro s w t
  change (_ ↔ tightened s t < gap s t ∧ _) ∧ _
  obtain ⟨hcs, h⟩ | ⟨hcs, hg, h⟩ | ⟨hcs, hg, hc, h⟩ | ⟨hcs, hg, hc, h⟩ := selectStep_cases s w t
  · simp [h, hcs]
  · simp [h, hcs, hg]
  · simp [h, hcs, hg, hc]
  · simp [h, hcs, hg, hc]

/-- Settles O17: the step is the pseudocode, and every branch of it writes both fields. -/
theorem everySampleUpdatesThresholdAndTimestamp : Obligations.EverySampleUpdatesThresholdAndTimestamp := by
  intro s s' w t rest hin hs
  have ha := accepts_of_step hin hs
  rw [step_eq_pseudoStep hin ha] at hs
  obtain ⟨hthr, hts⟩ := pseudoStep_time hs
  refine ⟨hts, fun hl => ?_, fun p hl => ⟨ha.tsInOrder p hl, ?_⟩⟩ <;>
    simpa only [tightened, gap, hl, gapFactor] using hthr

/-- Settles O18: a step runs one instruction or waits, and neither loosens the threshold. -/
theorem thresholdNeverIncreases : Obligations.ThresholdNeverIncreases := by
  refine ⟨fun s s' hs => ?_, fun i s s' h => exec_gapThr_le h⟩
  unfold step at hs
  split at hs
  · rw [waitForSample_eq_next hs]
  · exact (exec_gapThr_le hs :)

/-- Settles O19: the refusal of the sample is the refusal of every whole step, and an equal timestamp is in order. -/
theorem timestampOrder : Obligations.TimestampOrder := by
  intro s w t p hp
  refine ⟨fun hlt i hi => ?_, fun ha hc hf => ⟨fun hlt i hi => ?_, ?_⟩⟩
  · cases hr : sampleRefusal s t with
    | some r => exact ⟨r, exec_wholeStep_refused hi hr⟩
    | none => exact absurd ((sampleRefusal_eq_none.1 hr).tsInOrder p hp) (not_le.2 hlt)
  · exact exec_wholeStep_refused hi (sampleRefusal_timestampDecreased ha hc hf hp hlt)
  · rintro rfl
    have hacc : Accepts s t := ⟨ha, hc, hf, fun q hq => by cases hp.symm.trans hq; exact le_rfl⟩
    exact ⟨hacc, by simp [gap, hp], fun hcs => ⟨_, exec_stepIdle hacc hcs⟩⟩

/-- Settles O23: the frame is that of the assembler's rows, and the edge counter decides between the two outcomes. -/
theorem activeStepEffect : Obligations.ActiveStepEffect := by
  intro s w t hcs hg ha
  have hstep := exec_stepActive ha hcs hg
  refine ⟨hstep, fun hfit => hstep.trans (assemble_of_not_fits hfit), fun hfit => ?_⟩
  obtain ⟨s1, f, h1⟩ := assemble_of_fits (w := w) (s := stamp t (tighten t s)) hfit
  exact ⟨countEdge s1, hstep.trans h1, congrArg (· + 1) f.edge, f.gapThr, f.lastTs, f.out, f.burstOpen, f.bStartTs,
    f.addrw, f.txnCount, f.cfg, f.cfg0, f.input, f.closedSequences, f.openOrphans, f.laneMode⟩

/-- Settles O24: the implicit end, the reset of the burst's fields, and one single-lane shift. -/
theorem freshStartEffect : Obligations.FreshStartEffect := by
  intro s w t hcs hg hc ha hbits
  obtain ⟨p, hp⟩ := exists_lastTs_of_tightened_lt hg
  refine ⟨p, hp, ?_⟩
  rintro r rfl
  rw [exec_stepStartFresh ha hcs hg hc, assemble_freshStart (by simp [nextBurst]) (by simpa [nextBurst] using hbits)]
  simp [countEdge, shiftLanes, stamp, freshStart, nextBurst, openBurst, setResult, tighten, endOfBurst, hp,
    shiftBit_zero, hostOut, deviceIn, tightened, gapFactor]

/-- Settles O25: the implicit end, the synthetic pair, and one quad shift. -/
theorem continuousStartEffect : Obligations.ContinuousStartEffect := by
  intro s w t c hcs hg hc ho hq ha
  obtain ⟨p, hp⟩ := exists_lastTs_of_tightened_lt hg
  refine ⟨p, hp, ?_⟩
  rintro r rfl
  rw [exec_stepStartCont ha hcs hg hc,
    contStart_assemble (by simpa [nextBurst] using ho) (by simpa [nextBurst] using hq)]
  simp [countEdge, shiftNibble, stamp, push, addPair, preseed, nextBurst, openBurst, setResult, tighten, endOfBurst, hp,
    shiftNib, tightened, gapFactor, contPreseed]

/-- Settles O22: tightening and stamping are all that an idle sample does. -/
theorem idleStepEffect : Obligations.IdleStepEffect :=
  fun _ _ _ hcs ha => exec_stepIdle ha hcs

end Sys2Proof.Machine
end

section
/-! SUPPORT. The rows of the lane assembler, each where its condition holds: the shifts as arithmetic, the direction of
a quad byte, and the mode byte. -/

namespace Sys2Proof.Machine

/-! ### The shifts -/

/-- Shifting bits into a byte from below is multiplying and adding, modulo 256. -/
theorem shiftLeft_or_setWidth {k : Nat} (acc : Byte) (x : BitVec k) :
    (acc <<< k) ||| x.setWidth 8 = BitVec.ofNat 8 (2 ^ k * acc.toNat + x.toNat) := by
  apply BitVec.eq_of_toNat_eq
  rw [BitVec.toNat_or, BitVec.toNat_shiftLeft, BitVec.toNat_setWidth, BitVec.toNat_ofNat, ← Nat.or_mod_two_pow,
    ← Nat.shiftLeft_add_eq_or_of_lt x.isLt, Nat.shiftLeft_eq, Nat.mul_comm]

theorem shiftBit_eq_ofNat (acc : Byte) (b : Bool) : shiftBit acc b = BitVec.ofNat 8 (2 * acc.toNat + b.toNat) := by
  rw [shiftBit, shiftLeft_or_setWidth, BitVec.toNat_ofBool, Nat.pow_one]

theorem shiftNib_eq_ofNat (acc : Byte) (n : Nibble) :
    shiftNib acc n = BitVec.ofNat 8 (16 * acc.toNat + n.toNat) :=
  shiftLeft_or_setWidth acc n

theorem toNat_append_ofBool (a b c d : Bool) :
    (BitVec.ofBool a ++ BitVec.ofBool b ++ BitVec.ofBool c ++ BitVec.ofBool d).toNat =
      8 * a.toNat + 4 * b.toNat + 2 * c.toNat + d.toNat := by
  revert a b c d; decide

/-- The nibble's value, IO3 its top bit (20_memory.md R54). -/
theorem nibble_toNat (c : Config) (w : Word) :
    (nibble c w).toNat = 8 * (w.getLsbD c.lane3Bit).toNat + 4 * (w.getLsbD c.lane2Bit).toNat
      + 2 * (w.getLsbD c.diBit).toNat + (w.getLsbD c.hoBit).toNat :=
  toNat_append_ofBool _ _ _ _

theorem execSlShift_of_singleLane {s : State} (w : Word) (h : SingleLane s) :
    execSlShift w s = .next (shiftLanes w s) := by
  simp [execSlShift, quadPhase_eq_false.2 h]

theorem execQShift_of_quad {s : State} {q : Nat} (w : Word) (hq : s.qthr = some q) (hle : q ≤ s.edge) :
    execQShift w s = .next (shiftNibble w s) := by
  simp [execQShift, quadPhase_eq_true.2 ⟨q, hq, hle⟩]

/-! ### The rows of edge 7 -/

theorem execSlOpcode_of_edge7 {s : State} (w : Word) (h : SingleLane s) (h7 : s.edge = 7) :
    execSlOpcode w s = .next (captureOpcode s.accHo s) := by
  simp [execSlOpcode, slOpcodeAt_iff.2 ⟨h, h7⟩]

theorem execSlContDetect_of_continues {s : State} {b : Byte} {d : Nat} (w : Word) (h : SingleLane s) (h7 : s.edge = 7)
    (ho : s.opcode = some b) (hd : contOf s.cfg b = some d) : execSlContDetect w s = .next (switchToQuad d s) := by
  simp [execSlContDetect, slOpcodeAt_iff.2 ⟨h, h7⟩, ho, hd]

theorem execSlContDetect_of_not_continues {s : State} {b : Byte} (w : Word) (h : SingleLane s) (h7 : s.edge = 7)
    (ho : s.opcode = some b) (hd : contOf s.cfg b = none) : execSlContDetect w s = .next s := by
  simp [execSlContDetect, slOpcodeAt_iff.2 ⟨h, h7⟩, ho, hd]

/-! ### The flush of a quad byte -/

theorem afterDummy_iff {s : State} : afterDummy s = true ↔ 15 + s.dummy < s.edge :=
  decide_eq_true_iff

/-- The flushed quad byte pushed in its direction, the filler in the other one (41_lane_assembler.md R138). -/
def pushQuad (s : State) : State :=
  if afterDummy s then push filler s.accQ s else push s.accQ filler s

theorem pushQuad_of_deviceToHost {s : State} (h : 15 + s.dummy < s.edge) : pushQuad s = push 0x00 s.accQ s := by
  rw [pushQuad, if_pos (afterDummy_iff.2 h), filler]

theorem pushQuad_of_hostToDevice {s : State} (h : s.edge ≤ 15 + s.dummy) : pushQuad s = push s.accQ 0x00 s := by
  rw [pushQuad, if_neg (mt afterDummy_iff.1 h.not_gt), filler]

theorem execQDirection_of_quadFlush {s : State} (w : Word) (h : QuadFlush s) :
    execQDirection w s = .next (pushQuad s) := by
  simp only [execQDirection, qFlushAt_iff.2 h, if_true, pushQuad]
  split <;> rfl

theorem modeByte_iff_of_quadFlush {s : State} (h : QuadFlush s) :
    ModeByte s ↔ s.edge = 15 ∧ (s.opcode.bind (contOf s.cfg)).isSome = true := by
  cases ho : s.opcode <;> simp [ModeByte, h, ho, Option.isSome_iff_ne_none]

theorem execQFlush_of_modeByte {s : State} (w : Word) (h : ModeByte s) :
    execQFlush w s = .next (clearNibble (setCont (modeSaysContinue s.accQ) (pushQuad s))) := by
  have hf : QuadFlush s := h.1
  rw [execQFlush_of_flush (qFlushAt_iff.2 hf), if_pos ((modeByte_iff_of_quadFlush hf).1 h), pushQuad]

theorem execQFlush_of_not_modeByte {s : State} (w : Word) (h : QuadFlush s) (hm : ¬ ModeByte s) :
    execQFlush w s = .next (clearNibble (pushQuad s)) := by
  rw [execQFlush_of_flush (qFlushAt_iff.2 h), if_neg (mt (modeByte_iff_of_quadFlush h).2 hm), pushQuad]

/-! ### The edge of an idle sample -/

theorem execStepIdle_edge {s s' : State} {w : Word} {t : Nat} (h : execStepIdle w t s = .next s') :
    s'.edge = s.edge := by
  obtain ⟨-, h⟩ := admitSample_eq_next.1 h
  split at h <;> cases h <;> rfl

end Sys2Proof.Machine
end

section
/-! The statements of 41_lane_assembler.md on single rows, each settled from the laws above. -/

namespace Sys2Proof.Machine

/-- Settles O27: the flush law, at its three cases of the edge and of the table. -/
theorem singleLaneFlush : Obligations.SingleLaneFlush := by
  intro s w hs h8
  have hflush := execSlFlush_of_flush (w := w) (slFlushAt_iff.2 ⟨hs, h8⟩)
  refine ⟨fun h7 => hflush.trans ?_, fun h7 hc => hflush.trans ?_, fun d h7 hc => hflush.trans ?_⟩
  · rw [if_neg h7]; rfl
  · rw [if_pos h7, hc]; rfl
  · rw [if_pos h7, hc]; rfl

/-- Settles O32: the two direction hypotheses name the pair that is pushed, and the flush law does the rest. -/
theorem quadLaneFlush : Obligations.QuadLaneFlush := by
  intro s w h d hf hdh hhd
  have hpush : pushQuad s = push h d s := by
    obtain hlt | hle := lt_or_ge (15 + s.dummy) s.edge
    · obtain ⟨rfl, rfl⟩ := hdh hlt
      exact pushQuad_of_deviceToHost hlt
    · obtain ⟨rfl, rfl⟩ := hhd hle
      exact pushQuad_of_hostToDevice hle
  rw [← hpush]
  exact ⟨execQFlush_of_not_modeByte w hf, execQFlush_of_modeByte w⟩

/-- Settles O26: the row is the shift of both lanes, and each shift is arithmetic modulo 256. -/
theorem singleLaneShift : Obligations.SingleLaneShift := by
  intro s w hs
  refine (execSlShift_of_singleLane w hs).trans ?_
  simp only [shiftLanes, shiftBit_eq_ofNat, hostOut, deviceIn]

/-- Settles O28: edge 7 of the single-lane phase is where the row applies. -/
theorem opcodeCapture : Obligations.OpcodeCapture :=
  fun _ w hs h7 => execSlOpcode_of_edge7 w hs h7

/-- Settles O29, by what the table says of the captured opcode. -/
theorem continuationDetect : Obligations.ContinuationDetect :=
  fun _ w _ hs h7 ho =>
    ⟨fun _ hd => execSlContDetect_of_continues w hs h7 ho hd, execSlContDetect_of_not_continues w hs h7 ho⟩

/-- Settles O30: the row is the nibble shift, which is arithmetic modulo 256 on the nibble's value. -/
theorem quadLaneShift : Obligations.QuadLaneShift := by
  intro s w q hq hle
  refine (execQShift_of_quad w hq hle).trans ?_
  simp only [shiftNibble, shiftNib_eq_ofNat, nibble_toNat, Nat.add_assoc]

/-- Settles O31: the row pushes the quad byte, and the edge against 15 + dummy decides the direction. -/
theorem quadDirection : Obligations.QuadDirection := by
  intro s w hf
  have hrow := execQDirection_of_quadFlush w hf
  exact ⟨fun h => hrow.trans (congrArg _ (pushQuad_of_deviceToHost h)),
    fun h => hrow.trans (congrArg _ (pushQuad_of_hostToDevice h))⟩

/-- Settles O34: the assembler's rows keep the edge, and EDGE.INC, its last row, counts it or refuses. -/
theorem edgeCount : Obligations.EdgeCount := by
  intro s w
  refine ⟨fun hfit => ⟨execEdgeInc_of_fits (w := w) hfit, ?_⟩, fun k hk he => ?_, fun t s' h => execStepIdle_edge h⟩
  · obtain ⟨s1, f, h1⟩ := assemble_of_fits (w := w) hfit
    exact ⟨countEdge s1, h1, congrArg (· + 1) f.edge⟩
  · have hnot : ¬ EdgeFits s := fun h => h k hk he
    exact ⟨execEdgeInc_of_not_fits (w := w) hnot, assemble_of_not_fits hnot⟩

end Sys2Proof.Machine
end

section
/-! SUPPORT. The continuous-read-mode flag: what the tracker writes at the mode byte, and which rows and steps keep the
flag (42_continuous.md R160, R161). -/

namespace Sys2Proof.Machine

/-! ### What the tracker writes -/

/-- The sentinel test on the upper nibble, as a range of byte values (42_continuous.md R160). -/
theorem modeSaysContinue_iff (b : Byte) : modeSaysContinue b = true ↔ 0xA0 ≤ b.toNat ∧ b.toNat ≤ 0xAF := by
  revert b; decide

theorem execTrack_of_modeByte {s : State} (w : Word) (h : ModeByte s) :
    execTrack w s = .next (setCont (modeSaysContinue s.accQ) s) := by
  simp [execTrack, modeByteAt_iff.2 h]

theorem execQMode_of_modeByte {s : State} (w : Word) (h : ModeByte s) : execQMode w s = execTrack w s := by
  simp [execQMode, modeByteAt_iff.2 h]

theorem execTrack_of_not_modeByte {s : State} (w : Word) (h : ¬ ModeByte s) : execTrack w s = .next s := by
  simp [execTrack, mt modeByteAt_iff.1 h]

theorem execQMode_of_not_modeByte {s : State} (w : Word) (h : ¬ ModeByte s) : execQMode w s = .next s := by
  simp [execQMode, mt modeByteAt_iff.1 h]

/-! ### Where the mode byte can stand -/

theorem not_modeByte_of_edge_ne {s : State} (h : s.edge ≠ 15) : ¬ ModeByte s :=
  fun ⟨_, h15, _⟩ => h h15

/-- The rows of an active step make no mode byte: the edge stays, and at edge 15 the lane mode and the opcode stay. -/
theorem LaneFrame.modeByte {s s1 : State} (f : LaneFrame s s1) (h : ModeByte s1) : ModeByte s := by
  obtain ⟨⟨q, hq, hle, hodd⟩, h15, c, hc, hcont⟩ := h
  rw [f.edge] at hle hodd h15
  rw [f.cfg] at hcont
  obtain ⟨ho, hqthr, -⟩ := f.laneMode (by omega)
  exact ⟨⟨q, hqthr ▸ hq, hle, hodd⟩, h15, c, ho ▸ hc, hcont⟩

/-! ### Keeping the flag -/

/-- If the outcome is a next state, its continuous flag is that of `s`. -/
def KeepsFlag (s : State) (o : Host.Outcome State Fault Refusal) : Prop :=
  ∀ s', o = .next s' → s'.cont = s.cont

theorem KeepsFlag.next {s s' : State} (h : s'.cont = s.cont) : KeepsFlag s (.next s') := by
  rintro _ ⟨⟩
  exact h

theorem KeepsFlag.refused (s : State) (r : Refusal) : KeepsFlag s (.refused r) := by
  rintro _ ⟨⟩

theorem KeepsFlag.andThen {s : State} {o : Host.Outcome State Fault Refusal}
    {f : State → Host.Outcome State Fault Refusal} (h : KeepsFlag s o)
    (hf : ∀ s1, o = .next s1 → KeepsFlag s1 (f s1)) : KeepsFlag s (andThen o f) := by
  intro s' hs'
  obtain ⟨s1, h1, h2⟩ := andThen_eq_next.1 hs'
  exact (hf s1 h1 s' h2).trans (h s1 h1)

theorem KeepsFlag.admitSample {s : State} {t : Nat} {k : State → Host.Outcome State Fault Refusal}
    (h : KeepsFlag s (k s)) : KeepsFlag s (admitSample t s k) :=
  fun s' hs' => h s' (admitSample_eq_next.1 hs').2

/-! ### The rows of the lane assembler -/

theorem execSlShift_keepsFlag (w : Word) (s : State) : KeepsFlag s (execSlShift w s) := by
  unfold execSlShift
  split <;> exact .next rfl

theorem execSlOpcode_keepsFlag (w : Word) (s : State) : KeepsFlag s (execSlOpcode w s) := by
  unfold execSlOpcode
  split <;> exact .next rfl

theorem execSlContDetect_keepsFlag (w : Word) (s : State) : KeepsFlag s (execSlContDetect w s) := by
  unfold execSlContDetect
  split
  · split <;> exact .next rfl
  · exact .next rfl

theorem execSlFlush_keepsFlag (w : Word) (s : State) : KeepsFlag s (execSlFlush w s) := by
  unfold execSlFlush
  split
  · have hop : KeepsFlag s (execSlOpcode w (push s.accHo s.accDi s)) :=
      (KeepsFlag.next (push_cont _ _ s)).andThen fun s1 _ => execSlOpcode_keepsFlag w s1
    exact hop.andThen fun s1 _ => (execSlContDetect_keepsFlag w s1).andThen fun _ _ => .next rfl
  · exact .next rfl

theorem execQShift_keepsFlag (w : Word) (s : State) : KeepsFlag s (execQShift w s) := by
  unfold execQShift
  split <;> exact .next rfl

theorem execQDirection_keepsFlag (w : Word) (s : State) : KeepsFlag s (execQDirection w s) := by
  unfold execQDirection
  split
  · split <;> exact .next (push_cont _ _ s)
  · exact .next rfl

theorem execEdgeInc_keepsFlag (w : Word) (s : State) : KeepsFlag s (execEdgeInc w s) := by
  unfold execEdgeInc
  split
  · exact .refused s _
  · exact .next rfl

section AwayFromTheModeByte
variable {s : State} (hm : ¬ ModeByte s)
include hm

theorem execTrack_keepsFlag (w : Word) : KeepsFlag s (execTrack w s) := by
  rw [execTrack_of_not_modeByte w hm]
  exact .next rfl

theorem execQMode_keepsFlag (w : Word) : KeepsFlag s (execQMode w s) := by
  rw [execQMode_of_not_modeByte w hm]
  exact .next rfl

theorem execQFlush_keepsFlag (w : Word) : KeepsFlag s (execQFlush w s) := by
  unfold execQFlush
  split
  · refine (execQDirection_keepsFlag w s).andThen fun s1 h1 => ?_
    have hm1 : ¬ ModeByte s1 := mt ((execQDirection_keeps w s).frame h1).modeByte hm
    exact (execQMode_keepsFlag hm1 w).andThen fun _ _ => .next rfl
  · exact .next rfl

theorem assemble_keepsFlag (w : Word) : KeepsFlag s (assemble w s) := by
  unfold assemble
  refine (execSlShift_keepsFlag w s).andThen fun s1 h1 => (execSlFlush_keepsFlag w s1).andThen fun s2 h2 =>
    (execQShift_keepsFlag w s2).andThen fun s3 h3 => ?_
  have f1 := (execSlShift_keeps w s).frame h1
  have f2 := (execSlFlush_keeps w s1).frame h2
  have f3 := (execQShift_keeps w s2).frame h3
  have hm3 : ¬ ModeByte s3 := mt ((f1.trans f2).trans f3).modeByte hm
  exact (execQFlush_keepsFlag hm3 w).andThen fun s4 _ => execEdgeInc_keepsFlag w s4

theorem execStepActive_keepsFlag (w : Word) (t : Nat) : KeepsFlag s (execStepActive w t s) := by
  refine .admitSample ?_
  split
  · have hm1 : ¬ ModeByte (stamp t (tighten t s)) := hm
    exact assemble_keepsFlag hm1 w
  · exact .next rfl

end AwayFromTheModeByte

/-! ### The classifier, the starts and the idle step -/

theorem commandRow_keepsFlag (op : Byte) (s : State) : KeepsFlag s (commandRow op s) := by
  obtain h | ⟨p, -, -, -, h⟩ := commandRow_next op s <;> (rw [h]; exact .next rfl)

theorem implicitEnd_keepsFlag (s : State) : KeepsFlag s (implicitEnd s) := by
  obtain h | ⟨p, -, -, h⟩ := implicitEnd_next s <;> (rw [h]; exact .next rfl)

theorem contStart_keepsFlag (s : State) : KeepsFlag s (contStart s) := by
  cases ho : s.opcode with
  | none => rw [contStart_of_no_opcode ho]; exact .refused s _
  | some c => rw [contStart_of_opcode ho]; exact .next (push_cont _ _ _)

theorem contStart_edge {s s' : State} (h : contStart s = .next s') : s'.edge = 8 := by
  cases ho : s.opcode with
  | none => rw [contStart_of_no_opcode ho] at h; cases h
  | some c =>
    rw [contStart_of_opcode ho] at h
    cases h
    exact push_edge _ _ _

theorem execStepIdle_keepsFlag (w : Word) (t : Nat) (s : State) : KeepsFlag s (execStepIdle w t s) := by
  refine .admitSample ?_
  split <;> exact .next rfl

/-- A fresh start assembles its sample at edge 0, far from the mode byte. -/
theorem execStepStartFresh_keepsFlag (w : Word) (t : Nat) (s : State) :
    KeepsFlag s (execStepStartFresh w t s) := by
  refine .admitSample ?_
  split
  · have hend : KeepsFlag s (implicitEnd (tighten t s)) := implicitEnd_keepsFlag (tighten t s)
    refine hend.andThen fun s1 _ => ?_
    have hm : ¬ ModeByte (stamp t (freshStart (openBurst t s1))) := not_modeByte_of_edge_ne (by simp)
    exact assemble_keepsFlag hm w
  · exact .next rfl

/-- A continuous start assembles its sample at edge 8, before the mode byte. -/
theorem execStepStartCont_keepsFlag (w : Word) (t : Nat) (s : State) :
    KeepsFlag s (execStepStartCont w t s) := by
  refine .admitSample ?_
  split
  · have hend : KeepsFlag s (implicitEnd (tighten t s)) := implicitEnd_keepsFlag (tighten t s)
    refine hend.andThen fun s1 _ => ?_
    have hstart : KeepsFlag s1 (contStart (openBurst t s1)) := contStart_keepsFlag (openBurst t s1)
    refine hstart.andThen fun s2 h2 => ?_
    have hm : ¬ ModeByte (stamp t s2) := not_modeByte_of_edge_ne (by simp [contStart_edge h2])
    exact assemble_keepsFlag hm w
  · exact .next rfl

/-! ### Every instruction -/

/-- The instructions that can run the tracker: its own row, and those that contain it (42_continuous.md R161). -/
abbrev trackerRows (w : Word) (t : Nat) : List Instr :=
  [.stepActive w t, .qFlush w, .qMode w, .track w]

/-- An instruction keeps the flag, or it can run the tracker and keeps the flag away from the mode byte. -/
theorem exec_keepsFlag (i : Instr) (s : State) :
    KeepsFlag s (exec i s) ∨ (∃ w t, i ∈ trackerRows w t) ∧ (¬ ModeByte s → KeepsFlag s (exec i s)) := by
  cases i
  case stepActive w t => exact .inr ⟨⟨w, t, by simp⟩, fun hm => execStepActive_keepsFlag hm w t⟩
  case qFlush w => exact .inr ⟨⟨w, 0, by simp⟩, fun hm => execQFlush_keepsFlag hm w⟩
  case qMode w => exact .inr ⟨⟨w, 0, by simp⟩, fun hm => execQMode_keepsFlag hm w⟩
  case track w => exact .inr ⟨⟨w, 0, by simp⟩, fun hm => execTrack_keepsFlag hm w⟩
  case stepIdle w t => exact .inl (execStepIdle_keepsFlag w t s)
  case stepStartFresh w t => exact .inl (execStepStartFresh_keepsFlag w t s)
  case stepStartCont w t => exact .inl (execStepStartCont_keepsFlag w t s)
  case slShift w => exact .inl (execSlShift_keepsFlag w s)
  case slFlush w => exact .inl (execSlFlush_keepsFlag w s)
  case slOpcode w => exact .inl (execSlOpcode_keepsFlag w s)
  case slContDetect w => exact .inl (execSlContDetect_keepsFlag w s)
  case qShift w => exact .inl (execQShift_keepsFlag w s)
  case qDirection w => exact .inl (execQDirection_keepsFlag w s)
  case edgeInc w => exact .inl (execEdgeInc_keepsFlag w s)
  case read | fastRead | read4b | quadRead6b | quadRead | en4b | ex4b | unknown =>
    exact .inl (commandRow_keepsFlag _ s)

end Sys2Proof.Machine
end

section
/-! The statements of 42_continuous.md, each settled from the laws above. -/

namespace Sys2Proof.Machine

/-- Settles O52: an instruction that changed the flag is none that keeps it, so it can run the tracker, and the state
was at the mode byte, away from which it would have kept the flag. -/
theorem onlyTheTrackerWritesTheFlag : Obligations.OnlyTheTrackerWritesTheFlag := by
  intro i s s' h hne
  obtain hkeeps | ⟨hrow, hkeeps⟩ := exec_keepsFlag i s
  · exact absurd (hkeeps s' h) hne
  · exact ⟨by_contra fun hm => hne (hkeeps hm s' h), hrow⟩

/-- Settles O33: both rows write the sentinel test of the accumulator, which is the range 0xA0 to 0xAF. -/
theorem modeByteTracked : Obligations.ModeByteTracked := by
  intro s w hm i hi
  have hrow : exec i s = .next (setCont (modeSaysContinue s.accQ) s) := by
    simp only [List.mem_cons, List.not_mem_nil, or_false] at hi
    obtain rfl | rfl := hi
    · exact execTrack_of_modeByte w hm
    · exact (execQMode_of_modeByte w hm).trans (execTrack_of_modeByte w hm)
  rw [hrow, ← modeSaysContinue_iff]
  exact ⟨fun hb => by rw [hb]; rfl, fun hb => by rw [Bool.eq_false_of_not_eq_true hb]; rfl⟩

end Sys2Proof.Machine
end

section
/-! SUPPORT. The classifier on each branch of 43_classifier.md R170, the value of an address, and a command row on the
open burst that it names. -/

namespace Sys2Proof.Machine

/-! ### The value of an address (00_scope.md R10) -/

theorem bigEndian_nil : bigEndian [] = 0 := rfl

/-- Reading on from a value `a` puts `a` above all the bytes read. -/
theorem foldl_bytes (a : Nat) (bs : List Byte) :
    bs.foldl (fun acc b => acc * 256 + b.toNat) a = a * 256 ^ bs.length + bigEndian bs := by
  induction bs generalizing a with
  | nil => simp [bigEndian_nil]
  | cons b bs ih =>
    have hcons : bigEndian (b :: bs) = (0 * 256 + b.toNat) * 256 ^ bs.length + bigEndian bs := ih _
    rw [List.foldl_cons, ih, hcons, List.length_cons]
    ring

theorem bigEndian_cons (b : Byte) (bs : List Byte) :
    bigEndian (b :: bs) = b.toNat * 256 ^ bs.length + bigEndian bs :=
  (foldl_bytes (0 * 256 + b.toNat) bs).trans (by rw [Nat.zero_mul, Nat.zero_add])

theorem bigEndian_eq_sum (bs : List Byte) :
    bigEndian bs = ∑ i : Fin bs.length, (bs.get i).toNat * 256 ^ (bs.length - 1 - i.val) := by
  induction bs with
  | nil => rfl
  | cons b bs ih =>
    have hexp (i : Nat) : bs.length + 1 - 1 - (i + 1) = bs.length - 1 - i := by omega
    refine (bigEndian_cons b bs).trans (.trans ?_ (Fin.sum_univ_succ (n := bs.length) _).symm)
    rw [ih]
    simp only [List.length_cons, Fin.val_zero, Fin.val_succ, hexp]
    rfl

theorem bigEndian_lt (bs : List Byte) : bigEndian bs < 256 ^ bs.length := by
  induction bs with
  | nil => decide
  | cons b bs ih =>
    have hb : b.toNat < 256 := b.isLt
    calc bigEndian (b :: bs) = b.toNat * 256 ^ bs.length + bigEndian bs := bigEndian_cons b bs
      _ < (b.toNat + 1) * 256 ^ bs.length := by linarith
      _ ≤ 256 * 256 ^ bs.length := Nat.mul_le_mul_right _ hb
      _ = 256 ^ (b :: bs).length := (Nat.pow_succ').symm

theorem addressOf_cons (aw : Nat) (op : Byte) (rest : List Byte) :
    addressOf aw (op :: rest) = bigEndian (rest.take aw) := rfl

theorem payloadCount_cons (aw : Nat) (e : DataEntry) (op : Byte) (rest : List Byte) :
    payloadCount aw e (op :: rest).length = (rest.length + 1 : Int) - (aw + 2 + e.adj) := by
  simp [payloadCount, headerLength, hdrBase]

/-! ### The branches of the classifier -/

theorem classify_of_empty {h2d d2h : List Byte} (c : Config) (aw ts0 ts1 : Nat) (h : h2d = [] ∨ d2h = []) :
    classify c aw h2d d2h ts0 ts1 = (none, aw) := by
  obtain rfl | rfl := h
  · rfl
  · cases h2d <;> rfl

section
variable {c : Config} {aw : Nat} {op : Byte} {rest : List Byte} (d : Byte) (ds : List Byte) (ts0 ts1 : Nat)

theorem classify_of_control {n : Name} (hd : dataOf c op = none) (hn : ctrlOf c op = some n) :
    classify c aw (op :: rest) (d :: ds) ts0 ts1 =
      (levelFilter c (.control op (.known n) ts0 ts1), widthAfter c aw op) := by
  simp [classify, hd, hn]

theorem classify_of_unknown (hd : dataOf c op = none) (hn : ctrlOf c op = none) :
    classify c aw (op :: rest) (d :: ds) ts0 ts1 = (levelFilter c (.control op (.raw op) ts0 ts1), aw) := by
  simp [classify, hd, hn]

section
variable {e : DataEntry} (hd : dataOf c op = some e)
include hd

theorem classify_of_data :
    classify c aw (op :: rest) (d :: ds) ts0 ts1 = (dataResult c aw e op (op :: rest) ts0 ts1, aw) := by
  simp [classify, hd]

theorem classify_of_truncated (hlt : rest.length < aw) :
    classify c aw (op :: rest) (d :: ds) ts0 ts1 = (levelFilter c (.error op aw ts0 ts1), aw) := by
  have hn : (op :: rest).length < 1 + aw := by rw [List.length_cons]; omega
  rw [classify_of_data d ds ts0 ts1 hd, dataResult, if_pos hn]

theorem classify_of_filtered (hle : aw ≤ rest.length) (hp : addrPass c (bigEndian (rest.take aw)) = false) :
    classify c aw (op :: rest) (d :: ds) ts0 ts1 = (none, aw) := by
  have hn : ¬ (op :: rest).length < 1 + aw := by rw [List.length_cons]; omega
  rw [classify_of_data d ds ts0 ts1 hd, dataResult, if_neg hn, addressOf_cons, if_neg (by simp [hp])]

theorem classify_of_passed (hle : aw ≤ rest.length) (hp : addrPass c (bigEndian (rest.take aw)) = true) :
    classify c aw (op :: rest) (d :: ds) ts0 ts1 =
      (levelFilter c (.data op e.name (bigEndian (rest.take aw))
        (bigEndian (rest.take aw) + ((rest.length + 1 : Int) - (aw + 2 + e.adj)))
        ((rest.length + 1 : Int) - (aw + 2 + e.adj)) aw ts0 ts1), aw) := by
  have hn : ¬ (op :: rest).length < 1 + aw := by rw [List.length_cons]; omega
  rw [classify_of_data d ds ts0 ts1 hd, dataResult, if_neg hn, addressOf_cons, if_pos hp, payloadCount_cons]

end
end

/-! ### The width after a control opcode (43_classifier.md R180) -/

theorem widthAfter_ex4b (c : Config) (aw : Nat) : widthAfter c aw c.cmdtab.ex4b = 3 := if_pos rfl

theorem widthAfter_en4b {c : Config} (aw : Nat) (h : c.cmdtab.en4b ≠ c.cmdtab.ex4b) :
    widthAfter c aw c.cmdtab.en4b = 4 := by
  rw [widthAfter, if_neg h, if_pos rfl]

theorem widthAfter_of_ne {c : Config} {op : Byte} (aw : Nat) (hen : op ≠ c.cmdtab.en4b) (hex : op ≠ c.cmdtab.ex4b) :
    widthAfter c aw op = aw := by
  rw [widthAfter, if_neg hex, if_neg hen]

/-! ### The command rows -/

theorem commandRow_of_burst {op : Byte} {rest : List Byte} {s : State} {p : Nat} (hb : s.burstOpen = true)
    (hp : s.lastTs = some p) (hh : s.h2d = op :: rest) : commandRow op s = .next (classifyBurst p s) := by
  simp [commandRow, hp, hb, hh]

/-- Where the classifier keeps the width, a command row changes the record only. -/
theorem commandRow_of_width_kept {op : Byte} {rest ds : List Byte} {s : State} {p : Nat} {r : Option Record}
    (hb : s.burstOpen = true) (hp : s.lastTs = some p) (hh : s.h2d = op :: rest) (hd : s.d2h = ds)
    (hc : classify s.cfg s.addrw (op :: rest) ds s.bStartTs p = (r, s.addrw)) :
    commandRow op s = .next { s with out := r } := by
  rw [← hh, ← hd] at hc
  rw [commandRow_of_burst hb hp hh, classifyBurst, hc]
  rfl

theorem implicitEnd_of_empty {s : State} (hh : s.h2d = []) : implicitEnd s = .next s := by
  simp [implicitEnd, hh]

/-- The five data rows with the opcodes that the opcode table gives them (43_classifier.md R184 to R188). -/
abbrev dataRows : List (Instr × Byte) :=
  [(.read, 0x03), (.fastRead, 0x0B), (.read4b, 0x13), (.quadRead6b, 0x6B), (.quadRead, 0xEB)]

theorem exec_dataRow {i : Instr} {op : Byte} (hi : (i, op) ∈ dataRows) (s : State) : exec i s = commandRow op s := by
  simp only [List.mem_cons, Prod.mk.injEq, List.not_mem_nil, or_false] at hi
  obtain ⟨rfl, rfl⟩ | ⟨rfl, rfl⟩ | ⟨rfl, rfl⟩ | ⟨rfl, rfl⟩ | ⟨rfl, rfl⟩ := hi <;> rfl

/-! ### The lookups under the reference table (30_encoding.md R77) -/

theorem dataOf_of_refCmdTab {c : Config} (h : c.cmdtab = refCmdTab) (op : Byte) :
    dataOf c op = dataOf defaultConfig op := by
  rw [dataOf, h]; rfl

theorem contOf_of_refCmdTab {c : Config} (h : c.cmdtab = refCmdTab) (op : Byte) :
    contOf c op = contOf defaultConfig op := by
  rw [contOf, h]; rfl

end Sys2Proof.Machine
end

section
/-! The statements of 43_classifier.md, each settled from the laws above. -/

namespace Sys2Proof.Machine

/-- Settles O40: a data row is the classifier on the open burst, at the three ways its data branch can end. -/
theorem dataRowsResolveTheBurst : Obligations.DataRowsResolveTheBurst := by
  refine ⟨fun s p op d rest ds e i hi hb hp hh hd he => ?_, fun c hc => ?_⟩
  · have hrow {r : Option Record}
        (h : classify s.cfg s.addrw (op :: rest) (d :: ds) s.bStartTs p = (r, s.addrw)) :
        exec i s = .next { s with out := r } :=
      (exec_dataRow hi s).trans (commandRow_of_width_kept hb hp hh hd h)
    exact ⟨fun hlt => hrow (classify_of_truncated _ _ _ _ he hlt),
      fun hle hpass => hrow (classify_of_filtered _ _ _ _ he hle hpass),
      fun hle hpass => hrow (classify_of_passed _ _ _ _ he hle hpass)⟩
  · simp only [dataOf_of_refCmdTab hc, contOf_of_refCmdTab hc]
    decide

/-- Settles O46: the bytes after the opcode are the ones that the address reads. -/
theorem addressIsBigEndian : Obligations.AddressIsBigEndian := by
  rintro aw op bs rest rfl
  rw [addressOf_cons, List.take_left]
  exact ⟨bigEndian_eq_sum bs, bigEndian_lt bs⟩

/-- Settles O48: the two outcomes of the address filter, and the count where the length is least. -/
theorem dataBranch : Obligations.DataBranch := by
  rintro c aw op d e rest ds ts0 ts1 addr cnt he hle rfl rfl
  refine ⟨classify_of_filtered d ds ts0 ts1 he hle, classify_of_passed d ds ts0 ts1 he hle, ?_, fun hlen => ?_⟩
  · omega
  · omega

/-- Settles O42: the row is the classifier on the open burst, in its last branch. -/
theorem unknownRow : Obligations.UnknownRow := by
  intro s p op d rest ds hb hp hh hd hdata hctrl
  exact commandRow_of_width_kept hb hp hh hd (classify_of_unknown _ _ _ _ hdata hctrl)

/-- Settles O43: the record and the width of the control branch, the width by its three cases. -/
theorem controlBranch : Obligations.ControlBranch := by
  intro c aw op d n rest ds ts0 ts1 hdata hctrl hne
  rw [classify_of_control d ds ts0 ts1 hdata hctrl]
  refine ⟨rfl, ?_, ?_, widthAfter_of_ne aw⟩
  · rintro rfl
    exact widthAfter_en4b aw hne
  · rintro rfl
    exact widthAfter_ex4b c aw

/-- Settles O44: `1 + aw` bytes with the opcode are `aw` after it. -/
theorem truncatedDataCommand : Obligations.TruncatedDataCommand := by
  intro c aw op d e rest ds ts0 ts1 he hlen
  have hlt : rest.length < aw := by rw [List.length_cons] at hlen; omega
  exact classify_of_truncated d ds ts0 ts1 he hlt

/-- Settles O45: neither the classifier nor the implicit end does anything without a first byte. -/
theorem emptyBurstDiscarded : Obligations.EmptyBurstDiscarded :=
  ⟨fun c aw _ _ ts0 ts1 h => classify_of_empty c aw ts0 ts1 h, fun _ _ hh => implicitEnd_of_empty hh⟩

end Sys2Proof.Machine
end

section
/-! SUPPORT. The two filters of 44_filters.md: when an address is dropped, that the bounds do not touch a branch without
an address, and which levels pass each category. -/

namespace Sys2Proof.Machine

/-! ### The address filter -/

/-- An address is dropped by one of its two bounds. -/
theorem addrPass_eq_false_iff (c : Config) (addr : Nat) : addrPass c addr = false ↔
    ((0 < c.addrMin ∧ addr < c.addrMin) ∨ ∃ m, c.addrMax = some m ∧ m < addr) := by
  rw [addrPass, Bool.and_eq_false_iff]
  refine or_congr ?_ ?_
  · simp
  · cases c.addrMax <;> simp

/-! ### The configuration with other address bounds -/

/-- The configuration with its address bounds replaced, and nothing else. -/
abbrev withBounds (c : Config) (lo : Nat) (hi : Option Nat) : Config :=
  { c with addrMin := lo, addrMax := hi }

section
variable {c : Config} (lo : Nat) (hi : Option Nat) {aw : Nat} {op : Byte} {rest : List Byte} (d : Byte)
  (ds : List Byte) (ts0 ts1 : Nat)

theorem levelFilter_withBounds (r : Record) : levelFilter (withBounds c lo hi) r = levelFilter c r := rfl

theorem widthAfter_withBounds : widthAfter (withBounds c lo hi) aw op = widthAfter c aw op := rfl

theorem classify_withBounds_of_not_data (hd : dataOf c op = none) :
    classify (withBounds c lo hi) aw (op :: rest) (d :: ds) ts0 ts1 = classify c aw (op :: rest) (d :: ds) ts0 ts1 := by
  have hd' : dataOf (withBounds c lo hi) op = none := hd
  cases hn : ctrlOf c op with
  | some n =>
    have hn' : ctrlOf (withBounds c lo hi) op = some n := hn
    rw [classify_of_control d ds ts0 ts1 hd hn, classify_of_control d ds ts0 ts1 hd' hn', levelFilter_withBounds,
      widthAfter_withBounds]
  | none =>
    have hn' : ctrlOf (withBounds c lo hi) op = none := hn
    rw [classify_of_unknown d ds ts0 ts1 hd hn, classify_of_unknown d ds ts0 ts1 hd' hn', levelFilter_withBounds]

theorem classify_withBounds_of_truncated {e : DataEntry} (he : dataOf c op = some e) (hlt : rest.length < aw) :
    classify (withBounds c lo hi) aw (op :: rest) (d :: ds) ts0 ts1 = classify c aw (op :: rest) (d :: ds) ts0 ts1 := by
  have he' : dataOf (withBounds c lo hi) op = some e := he
  rw [classify_of_truncated d ds ts0 ts1 he hlt, classify_of_truncated d ds ts0 ts1 he' hlt, levelFilter_withBounds]

end

/-! ### The level filter, one category at a time -/

theorem levelPasses_error_iff (c : Config) : levelPasses c .error = true ↔
    c.level = .everything ∨ c.level = .onlyErrors ∨ c.errPassesDc = true := by
  cases hl : c.level <;> simp [levelPasses, hl]

theorem levelPasses_control_iff (c : Config) : levelPasses c .control = true ↔
    c.level = .everything ∨ c.level = .onlyControl := by
  cases hl : c.level <;> simp [levelPasses, hl]

theorem levelPasses_data_iff (c : Config) : levelPasses c .data = true ↔
    c.level = .everything ∨ c.level = .onlyData := by
  cases hl : c.level <;> simp [levelPasses, hl]

end Sys2Proof.Machine
end

section
/-! The statements of 44_filters.md, each settled from the laws above. -/

namespace Sys2Proof.Machine

/-- Settles O49: the two bounds; and the branches without an address, which are an empty burst, an opcode that is not a
data opcode, and a truncated data command. -/
theorem addressFilter : Obligations.AddressFilter := by
  refine ⟨addrPass_eq_false_iff, fun c lo hi aw op rest d2h ts0 ts1 h => ?_⟩
  cases d2h with
  | nil => rw [classify_of_empty _ aw ts0 ts1 (.inr rfl), classify_of_empty _ aw ts0 ts1 (.inr rfl)]
  | cons d ds =>
    cases hd : dataOf c op with
    | none => exact classify_withBounds_of_not_data lo hi d ds ts0 ts1 hd
    | some e =>
      have hlt : rest.length < aw := h.resolve_left (by simp [hd])
      exact classify_withBounds_of_truncated lo hi d ds ts0 ts1 hd hlt

/-- Settles O50: in each category's row, one cell per level. -/
theorem levelFilterMatrix : Obligations.LevelFilterMatrix := by
  intro c r
  cases r with
  | error => cases hl : c.level <;> simp [levelFilter, Record.category, levelPasses_error_iff, hl]
  | control => cases hl : c.level <;> simp [levelFilter, Record.category, levelPasses_control_iff, hl]
  | data => cases hl : c.level <;> simp [levelFilter, Record.category, levelPasses_data_iff, hl]

end Sys2Proof.Machine
end

section
/-! SUPPORT. The decoder and the encoder (30_encoding.md): what the class bit decides, and which command byte each row
is decoded from. -/

namespace Sys2Proof

/-! ### Sample words -/

theorem decode_sample_idle {c : Config} {w : Word} (t : Nat) (h : w.getLsbD c.csBit = true) :
    decode c (.sample w t) = .stepIdle w t := by
  simp [decode, decodeSample, h]

theorem decode_sample_active {c : Config} {w : Word} (t : Nat) (h : w.getLsbD c.csBit = false) :
    decode c (.sample w t) = .stepActive w t := by
  simp [decode, decodeSample, h]

theorem matchingRows_idle {c : Config} {w : Word} (t : Nat) (h : w.getLsbD c.csBit = true) :
    matchingRows c (.sample w t) = [.stepIdle w t] := by
  simp [matchingRows, sampleRows, h]

theorem matchingRows_active {c : Config} {w : Word} (t : Nat) (h : w.getLsbD c.csBit = false) :
    matchingRows c (.sample w t) = [.stepActive w t, .stepStartFresh w t, .stepStartCont w t, .slShift w, .slFlush w,
      .slOpcode w, .slContDetect w, .qShift w, .qFlush w, .qDirection w, .qMode w, .edgeInc w, .track w] := by
  simp [matchingRows, sampleRows, h]

/-! ### Command bytes -/

theorem notSwitch_iff {tab : CmdTab} {op : Byte} : tab.notSwitch op = true ↔ op ≠ tab.en4b ∧ op ≠ tab.ex4b := by
  simp [CmdTab.notSwitch]

/-- The rows of format cmd8 (30_encoding.md R75). -/
abbrev commandRows (op : Byte) : List Instr :=
  [.read, .fastRead, .read4b, .quadRead6b, .quadRead, .en4b, .ex4b, .unknown op]

/-- The row of an opcode that is no switch opcode: one of the five data rows, or the catch-all row. -/
def decodeFixed (op : Byte) : Instr :=
  if op = opRead then .read
  else if op = opFastRead then .fastRead
  else if op = opRead4b then .read4b
  else if op = opQuadRead6b then .quadRead6b
  else if op = opQuadRead then .quadRead
  else .unknown op

theorem decodeCommand_of_notSwitch {tab : CmdTab} {op : Byte} (h : tab.notSwitch op = true) :
    decodeCommand tab op = decodeFixed op :=
  (if_neg (notSwitch_iff.1 h).1).trans (if_neg (notSwitch_iff.1 h).2)

theorem decodeFixed_of_rest {op : Byte} (h : dataRowOpcodes.contains op = false) : decodeFixed op = .unknown op := by
  simp only [dataRowOpcodes, List.contains_eq_mem, decide_eq_false_iff_not, List.mem_cons, List.not_mem_nil, or_false,
    not_or] at h
  obtain ⟨h03, h0B, h13, h6B, hEB⟩ := h
  rw [decodeFixed, if_neg h03, if_neg h0B, if_neg h13, if_neg h6B, if_neg hEB]

/-- A well-formed command row is the decoding of its own byte: no switch row and no earlier row takes it. -/
theorem decode_encode_command {c : Config} {op : Byte} {i : Instr} (hi : i ∈ commandRows op) (hwf : i.wf c = true) :
    decode c (encode c i) = i := by
  simp only [List.mem_cons, List.not_mem_nil, or_false] at hi
  obtain rfl | rfl | rfl | rfl | rfl | rfl | rfl | rfl := hi
  iterate 5 exact decodeCommand_of_notSwitch hwf
  · exact if_pos rfl
  · have hne : c.cmdtab.en4b ≠ c.cmdtab.ex4b := bne_iff_ne.1 hwf
    exact (if_neg hne.symm).trans (if_pos rfl)
  · simp only [Instr.wf, Bool.and_eq_true, Bool.not_eq_true'] at hwf
    exact (decodeCommand_of_notSwitch hwf.1).trans (decodeFixed_of_rest hwf.2)

theorem encode_decode_command (c : Config) (op : Byte) : encode c (decode c (.command op)) = .command op := by
  simp only [decode, decodeCommand]
  split_ifs <;> simp_all [encode]

theorem encode_decode_sample (c : Config) (w : Word) (t : Nat) :
    encode c (decode c (.sample w t)) = .sample w t := by
  cases h : w.getLsbD c.csBit with
  | true => rw [decode_sample_idle t h]; rfl
  | false => rw [decode_sample_active t h]; rfl

/-- A well-formed instruction is among the rows that its code matches. -/
theorem mem_matchingRows_encode {c : Config} {i : Instr} (hwf : i.wf c = true) : i ∈ matchingRows c (encode c i) := by
  have command : ∀ op, i ∈ commandRows op → ∀ b, encode c i = .command b → i ∈ matchingRows c (encode c i) := by
    intro op hi b hb
    have hdec := decode_encode_command hi hwf
    rw [hb] at hdec ⊢
    exact List.mem_singleton.2 hdec.symm
  cases i
  case stepIdle w t => simp [encode, matchingRows_idle t hwf]
  case read | fastRead | read4b | quadRead6b | quadRead | en4b | ex4b => exact command 0 (by simp) _ rfl
  case unknown op => exact command op (by simp) _ rfl
  all_goals
    have hcs := Bool.eq_false_of_not_eq_true' hwf
    simp [encode, matchingRows_active _ hcs]

end Sys2Proof
end

section
/-! The statements of 30_encoding.md, each settled from the laws above. -/

namespace Sys2Proof.Machine

/-- Settles O2: the rows that a code matches, and the two directions of the round trip, by format. -/
theorem decodeAndEncodeAgree : Obligations.DecodeAndEncodeAgree := by
  refine ⟨fun c i => mem_matchingRows_encode, fun c w t => ⟨decode_sample_idle t, fun h => ?_⟩,
    fun c op i hi hwf => decode_encode_command hi hwf, fun c x => ?_⟩
  · exact decode_sample_active t (Bool.eq_false_of_not_eq_true' h)
  · cases x with
    | sample w t => exact encode_decode_sample c w t
    | command op => exact encode_decode_command c op

/-- With `CS_BIT` = 15 the class bit is the table's mask 0x8000. -/
theorem and_chipSelectMask (w : Word) : w &&& 0x8000 = if w.getLsbD 15 then 0x8000 else 0 := by
  apply BitVec.eq_of_toNat_eq
  refine (BitVec.toNat_and w _).trans ((Laws.class_bit w 15).trans ?_)
  split <;> rfl

/-- Settles O1: the class bit decides the decoding, the matching rows and the selected step; the mask is bit 15. -/
theorem sampleClassByChipSelect : Obligations.SampleClassByChipSelect := by
  intro c s w t
  refine ⟨fun h => ⟨decode_sample_idle t h, matchingRows_idle t h⟩,
    fun h => ⟨decode_sample_active t h, by simp [matchingRows_active t h]⟩, ⟨selectStep_of_csHigh, fun h => ?_⟩,
    fun h15 => ?_⟩
  · obtain ⟨hcs, -⟩ | ⟨-, -, h'⟩ | ⟨-, -, -, h'⟩ | ⟨-, -, -, h'⟩ := selectStep_cases s w t
    · exact hcs
    all_goals cases h.symm.trans h'
  · rw [h15, and_chipSelectMask]
    cases w.getLsbD 15 <;> decide

/-- Settles O3: the decoder evaluated on words of the tables. -/
theorem tableWordsDecodeToTheirRows : Obligations.TableWordsDecodeToTheirRows := by
  unfold Obligations.TableWordsDecodeToTheirRows
  decide

end Sys2Proof.Machine
end

section
/-! SUPPORT. What one step can do, said once: an accepted sample is only stamped, or it is assembled in one of three
states, or it meets the refusal of log 12; and a sample that is assembled runs the rows of one of the seven ways through
41_lane_assembler.md R130. -/

namespace Sys2Proof.Machine

/-! ### The whole step -/

/-- The state in which an accepted active sample is assembled: after the threshold and the timestamp, and at a start
after the implicit end and the start's own writes (40_boundary.md R111 to R113). -/
inductive AssembledIn (s : State) (w : Word) (t : Nat) : State → Prop where
  | active (hcs : w.getLsbD s.cfg.csBit = false) (hg : gap s t ≤ tightened s t) :
      AssembledIn s w t (stamp t (tighten t s))
  | startFresh (hcs : w.getLsbD s.cfg.csBit = false) (hg : tightened s t < gap s t) (hc : s.cont = false) :
      AssembledIn s w t (stamp t (freshStart (nextBurst t s)))
  | startCont (hcs : w.getLsbD s.cfg.csBit = false) (hg : tightened s t < gap s t) (hc : s.cont = true) {c : Byte}
      (ho : s.opcode = some c) : AssembledIn s w t (stamp t (push c 0x00 (preseed (nextBurst t s))))

theorem pseudoStep_cases (s : State) (w : Word) (t : Nat) :
    (w.getLsbD s.cfg.csBit = true ∧ pseudoStep w t s = .next (stamp t (tighten t s))) ∨
    (∃ b, AssembledIn s w t b ∧ pseudoStep w t s = assemble w b) ∨
    (s.cont = true ∧ s.opcode = none ∧ pseudoStep w t s = .refused .noPreviousOpcode) := by
  obtain ⟨hcs, -⟩ | ⟨hcs, hg, -⟩ | ⟨hcs, hg, hc, -⟩ | ⟨hcs, hg, hc, -⟩ := selectStep_cases s w t
  · exact .inl ⟨hcs, pseudoStep_idle t hcs⟩
  · exact .inr (.inl ⟨_, .active hcs hg, pseudoStep_active hcs hg⟩)
  · exact .inr (.inl ⟨_, .startFresh hcs hg hc, pseudoStep_startFresh hcs hg hc⟩)
  · have hstep := pseudoStep_startCont hcs hg hc
    cases ho : s.opcode with
    | none => exact .inr (.inr ⟨hc, rfl, by rw [hstep, contStart_of_no_opcode (s := nextBurst t s) ho]; rfl⟩)
    | some c =>
      exact .inr (.inl ⟨_, .startCont hcs hg hc ho,
        by rw [hstep, contStart_of_opcode (s := nextBurst t s) ho, andThen_next]⟩)

/-- A sample that answers a next state was idle and only stamped, or it was assembled. -/
theorem pseudoStep_next_cases {s s' : State} {w : Word} {t : Nat} (h : pseudoStep w t s = .next s') :
    (w.getLsbD s.cfg.csBit = true ∧ s' = stamp t (tighten t s)) ∨
    ∃ b, AssembledIn s w t b ∧ assemble w b = .next s' := by
  obtain ⟨hcs, h'⟩ | ⟨b, hb, h'⟩ | ⟨-, -, h'⟩ := pseudoStep_cases s w t
  · cases h'.symm.trans h
    exact .inl ⟨hcs, rfl⟩
  · exact .inr ⟨b, hb, h'.symm.trans h⟩
  · cases h'.symm.trans h

/-- A whole step that answers changed nothing, or it is the one that its accepted sample is. -/
theorem exec_wholeStep_next_cases {i : Instr} {s s' : State} {w : Word} {t : Nat} (hi : i ∈ wholeSteps w t)
    (h : exec i s = .next s') : s' = s ∨ pseudoStep w t s = .next s' := by
  have ha := accepts_of_exec_wholeStep hi h
  by_cases hsel : i = selectStep s w t
  · exact .inr (by rw [← exec_selectStep ha, ← hsel, h])
  · cases (exec_wholeStep_not_selected ha hi hsel).symm.trans h
    exact .inl rfl

/-- A step waits, or it processes the oldest delivered sample, which it accepts. -/
theorem step_next_cases {s s' : State} (h : step s = .next s') :
    (s.input = [] ∧ s' = { s with out := none }) ∨
    ∃ w t rest, s.input = ⟨w, t⟩ :: rest ∧ Accepts s t ∧ pseudoStep w t { s with input := rest } = .next s' := by
  cases hin : s.input with
  | nil =>
    simp only [step, hin] at h
    exact .inl ⟨rfl, by rw [waitForSample_eq_next h, hin]⟩
  | cons smp rest =>
    have ha := accepts_of_step hin h
    exact .inr ⟨smp.w, smp.t, rest, rfl, ha, (step_eq_pseudoStep hin ha).symm.trans h⟩

/-! ### The configuration and the ports -/

/-- The configuration, its value at reset and the pending input are as before (10_state.md R35; log 1). -/
def PortFrame (s s' : State) : Prop :=
  s'.cfg = s.cfg ∧ s'.cfg0 = s.cfg0 ∧ s'.input = s.input

theorem PortFrame.refl (s : State) : PortFrame s s := ⟨rfl, rfl, rfl⟩

theorem AssembledIn.portFrame {s b : State} {w : Word} {t : Nat} (h : AssembledIn s w t b) : PortFrame s b := by
  cases h
  · exact .refl s
  · exact .refl s
  · exact ⟨push_cfg _ _ _, push_cfg0 _ _ _, push_input _ _ _⟩

theorem LaneFrame.portFrame {s s' : State} (f : LaneFrame s s') : PortFrame s s' := ⟨f.cfg, f.cfg0, f.input⟩

theorem PortFrame.trans {s s1 s2 : State} (h : PortFrame s s1) (h' : PortFrame s1 s2) : PortFrame s s2 :=
  ⟨h'.1.trans h.1, h'.2.1.trans h.2.1, h'.2.2.trans h.2.2⟩

theorem pseudoStep_portFrame {s s' : State} {w : Word} {t : Nat} (h : pseudoStep w t s = .next s') :
    PortFrame s s' := by
  obtain ⟨-, rfl⟩ | ⟨b, hb, h⟩ := pseudoStep_next_cases h
  · exact .refl s
  · obtain ⟨-, s1, f, rfl⟩ := assemble_eq_next h
    exact hb.portFrame.trans f.portFrame

theorem exec_portFrame {i : Instr} {s s' : State} (h : exec i s = .next s') : PortFrame s s' := by
  cases i
  case stepIdle w t | stepActive w t | stepStartFresh w t | stepStartCont w t =>
    obtain rfl | h := exec_wholeStep_next_cases (w := w) (t := t) (by simp) h
    · exact .refl _
    · exact pseudoStep_portFrame h
  case slShift w | slFlush w | slOpcode w | slContDetect w | qShift w | qFlush w | qDirection w | qMode w | track w =>
    exact ((exec_laneRow_keeps (w := w) (by simp) s).frame h).portFrame
  case edgeInc w =>
    obtain ⟨-, rfl⟩ := (execEdgeInc_eq_next (w := w)).1 h
    exact .refl s
  case read | fastRead | read4b | quadRead6b | quadRead | en4b | ex4b | unknown =>
    obtain h' | ⟨p, -, -, -, h'⟩ := commandRow_next _ s <;> (cases h'.symm.trans h; exact .refl s)

/-! ### The start condition without the tightened threshold (40_boundary.md R121) -/

/-- Four gaps are never less than one, so the gap exceeds the tightened threshold where it exceeds the old one. -/
theorem tightened_lt_gap_iff {s : State} {t : Nat} : tightened s t < gap s t ↔ s.gapThr < gap s t := by
  rw [tightened, gapFactor, min_lt_iff]
  omega

theorem gap_le_tightened_iff {s : State} {t : Nat} : gap s t ≤ tightened s t ↔ gap s t ≤ s.gapThr := by
  rw [← not_lt, tightened_lt_gap_iff, not_lt]

end Sys2Proof.Machine
end

section
/-! The statements on the step as a whole, of 10_state.md, 40_boundary.md and 60_exceptions.md, each settled from the
laws above. -/

namespace Sys2Proof.Machine

/-- Settles O54: every instruction keeps the ports, and a step runs one on the state without its sample, or waits. -/
theorem configurationIsReadOnly : Obligations.ConfigurationIsReadOnly := by
  refine ⟨fun i s s' h => exec_portFrame h, fun s s' h => ?_⟩
  obtain ⟨hin, rfl⟩ | ⟨w, t, rest, hin, -, h⟩ := step_next_cases h
  · simp [hin]
  · rw [hin]
    exact pseudoStep_portFrame h

/-- Settles O16: the four cases of the selection, with the threshold before the step. -/
theorem startConditionClosedForm : Obligations.StartConditionClosedForm := by
  intro s w t
  have closedForm : (selectStep s w t = .stepStartFresh w t ∨ selectStep s w t = .stepStartCont w t) ↔
      (w.getLsbD s.cfg.csBit = false ∧ s.gapThr < gap s t) := by
    rw [← tightened_lt_gap_iff, (startCondition s w t).1]
    exact and_comm
  refine ⟨closedForm, fun hl hcs => ?_, fun p hp h0 hlt hcs => closedForm.2 ⟨hcs, ?_⟩⟩
  · have hg : gap s t ≤ tightened s t := gap_le_tightened_iff.2 (by simp [gap, hl])
    exact selectStep_of_activeSample (by simp [activeSample, csHigh, hcs, hg])
  · simpa [gap, hp, h0] using hlt

/-- Settles O20: each condition is that of the sample's refusal, which is every whole step's. -/
theorem refusalConditions : Obligations.RefusalConditions := by
  intro s w t i hi
  refine ⟨fun ha => ?_, fun ha hc => ?_, fun ha hc k hk hle => ?_⟩ <;> refine exec_wholeStep_refused hi ?_
  · simp [sampleRefusal, runRefusal, ha]
  · simp [sampleRefusal, runRefusal, ha, hc]
  · have hf : tsFits s.cfg t = false := by simpa [tsFits, hk] using hle
    simp [sampleRefusal, runRefusal_eq_none.2 ⟨ha, hc⟩, hf]

/-- Settles O55: an assembled sample counts one edge more than the state it is assembled in, and its start decides that
state's counters. -/
theorem countersOfAStep : Obligations.CountersOfAStep := by
  intro s s' w t rest hin h
  rw [step_eq_pseudoStep hin (accepts_of_step hin h)] at h
  obtain ⟨hcs, rfl⟩ | ⟨b, hb, h⟩ := pseudoStep_next_cases h
  · simp_all
  · obtain ⟨-, s1, f, rfl⟩ := assemble_eq_next h
    rw [countEdge_edge, countEdge_txnCount, countEdge_burstOpen, f.edge, f.txnCount, f.burstOpen]
    cases hb with
    | active hcs hg =>
      have hg' : gap s t ≤ s.gapThr := gap_le_tightened_iff.1 hg
      simp_all
    | startFresh hcs hg hc =>
      have hg' : s.gapThr < gap s t := tightened_lt_gap_iff.1 hg
      simp_all [nextBurst]
    | startCont hcs hg hc ho =>
      have hg' : s.gapThr < gap s t := tightened_lt_gap_iff.1 hg
      simp_all [nextBurst, contPreseed]

/-- Settles O12: the four cases of the selection are rows of the word's class. -/
theorem stepRunsTheSelectedRow : Obligations.StepRunsTheSelectedRow := by
  intro s w t rest hin
  refine ⟨step_of_input hin, ?_⟩
  obtain ⟨hcs, h⟩ | ⟨hcs, -, h⟩ | ⟨hcs, -, -, h⟩ | ⟨hcs, -, -, h⟩ := selectStep_cases s w t
  · simp [h, matchingRows_idle t hcs, Instr.wf, hcs]
  all_goals simp [h, matchingRows_active t hcs, Instr.wf, hcs]

/-- Settles O14: without a refusal of the run, waiting clears the offered record and nothing else. -/
theorem noSampleNoWork : Obligations.NoSampleNoWork := by
  intro s hin ha hc
  simp [step, hin, waitForSample, runRefusal_eq_none.2 ⟨ha, hc⟩]

end Sys2Proof.Machine
end

section
/-! SUPPORT. The invariants of a run: the ways through the assembler, and the lane phase that each of them keeps
(10_state.md section 2, 41_lane_assembler.md section 5, 42_continuous.md section 2). -/

namespace Sys2Proof.Machine

/-! ### The ways through the assembler -/

/-- The byte pair in the single-lane accumulators, pushed (41_lane_assembler.md R133). -/
def pushLanes (s : State) : State := push s.accHo s.accDi s

/-- What the rows before EDGE.INC make of a state, one way for each case of 41_lane_assembler.md R130. -/
inductive LaneStep (w : Word) (s : State) : State → Prop where
  | slShift (hs : SingleLane s) (he : s.edge % 8 ≠ 7) : LaneStep w s (shiftLanes w s)
  | slFlush (hs : SingleLane s) (he : s.edge % 8 = 7) (h7 : s.edge ≠ 7) :
      LaneStep w s (clearLanes (pushLanes (shiftLanes w s)))
  | slOpcode (hs : SingleLane s) (h7 : s.edge = 7) (hc : contOf s.cfg (shiftLanes w s).accHo = none) :
      LaneStep w s (clearLanes (captureOpcode (shiftLanes w s).accHo (pushLanes (shiftLanes w s))))
  | slSwitch (hs : SingleLane s) (h7 : s.edge = 7) {d : Nat} (hc : contOf s.cfg (shiftLanes w s).accHo = some d) :
      LaneStep w s
        (clearLanes (switchToQuad d (captureOpcode (shiftLanes w s).accHo (pushLanes (shiftLanes w s)))))
  | qShift {q : Nat} (hq : s.qthr = some q) (hle : q ≤ s.edge) (he : (s.edge - q) % 2 = 0) :
      LaneStep w s (shiftNibble w s)
  | qFlush (hf : QuadFlush s) (hm : ¬ ModeByte s) : LaneStep w s (clearNibble (pushQuad (shiftNibble w s)))
  | qMode (hm : ModeByte s) :
      LaneStep w s (clearNibble (setCont (modeSaysContinue (shiftNibble w s).accQ) (pushQuad (shiftNibble w s))))

theorem laneStep_singleLane (w : Word) {s : State} (hs : SingleLane s) :
    ∃ s1, LaneStep w s s1 ∧ assemble w s = execEdgeInc w s1 := by
  by_cases he : s.edge % 8 = 7
  · have hflush := execSlFlush_of_flush (w := w) (s := shiftLanes w s) (slFlushAt_iff.2 ⟨hs, he⟩)
    rw [assemble_singleLane hs, hflush, andThen_next]
    by_cases h7 : s.edge = 7
    · rw [if_pos (by exact h7)]
      cases hc : contOf s.cfg (shiftLanes w s).accHo with
      | none => exact ⟨_, .slOpcode hs h7 hc, by rw [shiftLanes_cfg, hc]; rfl⟩
      | some d => exact ⟨_, .slSwitch hs h7 hc, by rw [shiftLanes_cfg, hc]; rfl⟩
    · exact ⟨_, .slFlush hs he h7, by rw [if_neg (by exact h7)]; rfl⟩
  · exact ⟨_, .slShift hs he, assemble_singleLane_noFlush hs he⟩

theorem laneStep_quad (w : Word) {s : State} {q : Nat} (hq : s.qthr = some q) (hle : q ≤ s.edge) :
    ∃ s1, LaneStep w s s1 ∧ assemble w s = execEdgeInc w s1 := by
  obtain he | he := Nat.mod_two_eq_zero_or_one (s.edge - q)
  · exact ⟨_, .qShift hq hle he, assemble_quad_noFlush hq hle he⟩
  · have hf : QuadFlush s := ⟨q, hq, hle, he⟩
    rw [assemble_quadPhase hf.quadPhase]
    by_cases hm : ModeByte s
    · exact ⟨_, .qMode hm, by rw [execQFlush_of_modeByte (s := shiftNibble w s) w hm, andThen_next]⟩
    · exact ⟨_, .qFlush hf hm, by rw [execQFlush_of_not_modeByte (s := shiftNibble w s) w hf hm, andThen_next]⟩

theorem assemble_laneStep (w : Word) (s : State) : ∃ s1, LaneStep w s s1 ∧ assemble w s = execEdgeInc w s1 := by
  cases hp : quadPhase s with
  | false => exact laneStep_singleLane w (quadPhase_eq_false.1 hp)
  | true =>
    obtain ⟨q, hq, hle⟩ := quadPhase_eq_true.1 hp
    exact laneStep_quad w hq hle

theorem assemble_next_laneStep {w : Word} {s s' : State} (h : assemble w s = .next s') :
    ∃ s1, LaneStep w s s1 ∧ s' = countEdge s1 := by
  obtain ⟨s1, hl, h1⟩ := assemble_laneStep w s
  exact ⟨s1, hl, (execEdgeInc_eq_next.1 (h1.symm.trans h)).2⟩

/-! ### The two halves of the invariants -/

/-- The invariants on the burst's boundary, none of which reads what the assembler writes. -/
def BoundaryInv (s : State) : Prop :=
  s.gapThr ≤ s.cfg.gapInit ∧ (1 ≤ s.addrw ∧ s.addrw ≤ 4) ∧ (s.burstOpen = true → s.lastTs ≠ none) ∧
    (s.burstOpen = false ↔ s.txnCount = 0)

/-- The two sequences are of one length, and empty while no burst is open. -/
def SequenceInv (s : State) : Prop :=
  s.h2d.length = s.d2h.length ∧ (s.burstOpen = false → s.h2d = [])

/-- The phase of the lane assembler. Before a switch the flag is clear and every byte took eight edges; after it the
threshold is 8, the opcode is a continuation opcode, and every byte past it took two (42_continuous.md R165). -/
inductive LanePhase (s : State) : Prop where
  | single (hq : s.qthr = none) (hc : s.cont = false) (hl : s.burstOpen = true → s.h2d.length = s.edge / 8)
  | quad (hq : s.qthr = some 8) (he : 8 ≤ s.edge) (ho : ∃ c, s.opcode = some c ∧ contOf s.cfg c = some s.dummy)
      (hl : s.burstOpen = true → s.h2d.length = 1 + (s.edge - 8) / 2)

theorem LanePhase.of_singleLane {s : State} (h : LanePhase s) (hs : SingleLane s) :
    s.qthr = none ∧ s.cont = false ∧ (s.burstOpen = true → s.h2d.length = s.edge / 8) := by
  cases h with
  | single hq hc hl => exact ⟨hq, hc, hl⟩
  | quad hq he => exact absurd (hs 8 hq) (not_lt.2 he)

theorem LanePhase.of_quad {s : State} (h : LanePhase s) {q : Nat} (hq : s.qthr = some q) :
    q = 8 ∧ 8 ≤ s.edge ∧ (∃ c, s.opcode = some c ∧ contOf s.cfg c = some s.dummy) ∧
      (s.burstOpen = true → s.h2d.length = 1 + (s.edge - 8) / 2) := by
  cases h with
  | single hq' => cases hq'.symm.trans hq
  | quad hq' he ho hl =>
    cases hq'.symm.trans hq
    exact ⟨rfl, he, ho, hl⟩

theorem runInv_iff {s : State} : RunInv s ↔ BoundaryInv s ∧ SequenceInv s ∧ LanePhase s := by
  constructor
  · rintro ⟨⟨hlen, hclosed, hcont, hthr, hq⟩, hop, hw, hts, hopen, hacc⟩
    refine ⟨⟨hthr, hw, hts, hopen⟩, ⟨hlen, hclosed⟩, ?_⟩
    obtain hq | hq := hq
    · refine .single hq (Bool.eq_false_iff.2 fun hc => ?_) fun hb => (hacc hb).1 hq
      obtain ⟨c, -, hq8, -⟩ := hcont hc
      cases hq.symm.trans hq8
    · have hne : s.qthr ≠ none := by simp [hq]
      exact .quad hq (hop hne).1 (hop hne).2 fun hb => (hacc hb).2 hne
  · rintro ⟨⟨hthr, hw, hts, hopen⟩, ⟨hlen, hclosed⟩, hphase⟩
    cases hphase with
    | single hq hc hl =>
      exact ⟨⟨hlen, hclosed, fun h => by simp [hc] at h, hthr, .inl hq⟩, fun h => absurd hq h, hw, hts, hopen,
        fun hb => ⟨fun _ => hl hb, fun h => absurd hq h⟩⟩
    | quad hq he ho hl =>
      obtain ⟨c, hc, hd⟩ := ho
      exact ⟨⟨hlen, hclosed, fun _ => ⟨c, hc, hq, hd⟩, hthr, .inr hq⟩, fun _ => ⟨he, c, hc, hd⟩, hw, hts, hopen,
        fun hb => ⟨fun h => (by cases hq.symm.trans h), fun _ => hl hb⟩⟩

/-! ### The assembler keeps them -/

theorem LaneFrame.boundaryInv {s s1 : State} (f : LaneFrame s s1) (h : BoundaryInv s) : BoundaryInv s1 := by
  obtain ⟨hthr, hw, hts, hopen⟩ := h
  refine ⟨?_, ?_, ?_, ?_⟩
  · rwa [f.gapThr, f.cfg]
  · rwa [f.addrw]
  · rwa [f.burstOpen, f.lastTs]
  · rwa [f.burstOpen, f.txnCount]

theorem push_sequenceInv (h d : Byte) {s : State} (hs : SequenceInv s) : SequenceInv (push h d s) := by
  obtain ⟨hlen, hclosed⟩ := hs
  cases hb : s.burstOpen with
  | true => simp [SequenceInv, push_h2d, push_d2h, hb, hlen]
  | false => simpa [SequenceInv, push_h2d, push_d2h, hb] using And.intro hlen (hclosed hb)

theorem pushQuad_eq_push (s : State) : ∃ h d, pushQuad s = push h d s := by
  unfold pushQuad
  split <;> exact ⟨_, _, rfl⟩

theorem LaneStep.sequenceInv {w : Word} {s s1 : State} (h : LaneStep w s s1) (hs : SequenceInv s) :
    SequenceInv s1 := by
  cases h with
  | slShift | qShift => exact hs
  | slFlush | slOpcode | slSwitch => exact push_sequenceInv _ _ (s := shiftLanes w s) hs
  | qFlush | qMode =>
    obtain ⟨h, d, hpush⟩ := pushQuad_eq_push (shiftNibble w s)
    rw [hpush]
    exact push_sequenceInv h d (s := shiftNibble w s) hs

/-- In an open burst a pair makes the sequence one byte longer. -/
theorem push_length (h d : Byte) {s : State} (hb : s.burstOpen = true) :
    (push h d s).h2d.length = s.h2d.length + 1 := by
  simp [push_h2d, hb]

/-- A single-lane sample counts an edge, and every eighth one a byte; the switch at edge 7 makes the first byte the
opcode of the quad phase. -/
theorem LaneStep.lanePhase_single {w : Word} {s s1 : State} (h : LaneStep w s s1) (hs : SingleLane s)
    (hp : LanePhase s) : LanePhase (countEdge s1) := by
  obtain ⟨hq, hc, hl⟩ := hp.of_singleLane hs
  have notQuad : ∀ q, s.qthr ≠ some q := by simp [hq]
  have flushed : ∀ h d, s.edge % 8 = 7 → s.burstOpen = true →
      (push h d (shiftLanes w s)).h2d.length = (s.edge + 1) / 8 := by
    intro h d he hb
    have hlen := hl hb
    rw [push_length h d (s := shiftLanes w s) hb, shiftLanes_h2d]
    omega
  cases h with
  | slShift _ he =>
    refine .single hq hc fun hb => (hl hb).trans ?_
    rw [countEdge_edge, shiftLanes_edge]
    omega
  | slFlush _ he =>
    exact .single (by simpa [pushLanes]) (by simpa [pushLanes]) (by simpa [pushLanes] using flushed _ _ he)
  | slOpcode _ h7 =>
    exact .single (by simpa [pushLanes]) (by simpa [pushLanes])
      (by simpa [pushLanes] using flushed _ _ (by rw [h7]))
  | slSwitch _ h7 hd =>
    refine .quad rfl (by simp [pushLanes, h7]) ⟨_, rfl, by simpa [pushLanes] using hd⟩ fun hb => ?_
    have hlen := flushed (shiftLanes w s).accHo (shiftLanes w s).accDi (by rw [h7]) (by simpa [pushLanes] using hb)
    simpa [pushLanes, h7] using hlen
  | qShift hq' => exact absurd hq' (notQuad _)
  | qFlush hf =>
    obtain ⟨q, hq', -⟩ := hf
    exact absurd hq' (notQuad q)
  | qMode hm =>
    obtain ⟨⟨q, hq', -⟩, -⟩ := hm
    exact absurd hq' (notQuad q)

/-- A quad sample counts an edge, and every second one a byte; the mode byte is one of a continuation opcode's burst. -/
theorem LaneStep.lanePhase_quad {w : Word} {s s1 : State} {q : Nat} (h : LaneStep w s s1) (hq : s.qthr = some q)
    (hle : q ≤ s.edge) (hp : LanePhase s) : LanePhase (countEdge s1) := by
  obtain ⟨rfl, he, ho, hl⟩ := hp.of_quad hq
  have notSingle : ¬ SingleLane s := fun hs => absurd (hs 8 hq) (not_lt.2 hle)
  have flushed : ∀ h d, QuadFlush s → s.burstOpen = true →
      (push h d (shiftNibble w s)).h2d.length = 1 + (s.edge + 1 - 8) / 2 := by
    rintro h d ⟨q, hq', -, hodd⟩ hb
    cases hq'.symm.trans hq
    have hlen := hl hb
    rw [push_length h d (s := shiftNibble w s) hb, shiftNibble_h2d]
    omega
  obtain ⟨x, y, hpush⟩ := pushQuad_eq_push (shiftNibble w s)
  cases h with
  | qShift hq' _ hev =>
    cases hq'.symm.trans hq
    refine .quad hq (he.trans (Nat.le_succ _)) ho fun hb => (hl hb).trans ?_
    rw [countEdge_edge, shiftNibble_edge]
    omega
  | qFlush hf =>
    rw [hpush]
    exact .quad (by simpa) (by simp; omega) (by simpa using ho) (by simpa using flushed x y hf)
  | qMode hm =>
    rw [hpush]
    exact .quad (by simpa) (by simp; omega) (by simpa using ho) (by simpa using flushed x y hm.1)
  | slShift hs | slFlush hs | slOpcode hs | slSwitch hs => exact absurd hs notSingle

theorem LaneStep.lanePhase {w : Word} {s s1 : State} (h : LaneStep w s s1) (hp : LanePhase s) :
    LanePhase (countEdge s1) := by
  cases hph : quadPhase s with
  | false => exact h.lanePhase_single (quadPhase_eq_false.1 hph) hp
  | true =>
    obtain ⟨q, hq, hle⟩ := quadPhase_eq_true.1 hph
    exact h.lanePhase_quad hq hle hp

theorem assemble_runInv {w : Word} {s s' : State} (h : assemble w s = .next s') (hs : RunInv s) : RunInv s' := by
  obtain ⟨hbound, hseq, hphase⟩ := runInv_iff.1 hs
  obtain ⟨-, s1, f, rfl⟩ := assemble_eq_next h
  have hb : BoundaryInv (countEdge s1) := f.boundaryInv hbound
  obtain ⟨s2, hl, h2⟩ := assemble_next_laneStep h
  rw [h2] at hb ⊢
  have hseq2 : SequenceInv (countEdge s2) := hl.sequenceInv hseq
  exact runInv_iff.2 ⟨hb, hseq2, hl.lanePhase hphase⟩

/-! ### The states in which a sample is assembled -/

theorem endOfBurst_width {s : State} (hw : 1 ≤ s.addrw ∧ s.addrw ≤ 4) :
    1 ≤ (endOfBurst s).2 ∧ (endOfBurst s).2 ≤ 4 := by
  unfold endOfBurst
  split
  · obtain h | h | h := classify_width s.cfg s.addrw s.h2d s.d2h s.bStartTs (s.lastTs.getD 0) <;> rw [h]
    · exact hw
    · decide
    · decide
  · exact hw

theorem BoundaryInv.stamp_tighten {s : State} (h : BoundaryInv s) (t : Nat) : BoundaryInv (stamp t (tighten t s)) := by
  obtain ⟨hthr, hw, -, hopen⟩ := h
  exact ⟨(tightened_le s t).trans hthr, hw, fun _ h => (by cases h), hopen⟩

/-- A start opens a burst and counts it, at a legal width. -/
theorem BoundaryInv.stamp_nextBurst {s : State} (h : BoundaryInv s) (t : Nat) :
    BoundaryInv (stamp t (nextBurst t s)) := by
  obtain ⟨hthr, hw, -, -⟩ := h
  exact ⟨(tightened_le s t).trans hthr, endOfBurst_width hw, fun _ h => (by cases h), by simp [nextBurst]⟩

theorem RunInv.stamp_tighten {s : State} (h : RunInv s) (t : Nat) : RunInv (stamp t (tighten t s)) := by
  obtain ⟨hbound, hseq, hphase⟩ := runInv_iff.1 h
  refine runInv_iff.2 ⟨hbound.stamp_tighten t, hseq, ?_⟩
  cases hphase with
  | single hq hc hl => exact .single hq hc hl
  | quad hq he ho hl => exact .quad hq he ho hl

theorem AssembledIn.runInv {s b : State} {w : Word} {t : Nat} (hb : AssembledIn s w t b) (h : RunInv s) : RunInv b := by
  have hbound := (runInv_iff.1 h).1.stamp_nextBurst t
  cases hb with
  | active => exact h.stamp_tighten t
  | startFresh _ _ hc => exact runInv_iff.2 ⟨hbound, ⟨rfl, fun _ => rfl⟩, .single rfl hc fun _ => (Nat.zero_div 8).symm⟩
  | @startCont _ _ hc c ho =>
    obtain ⟨_, hc8, hq, hd⟩ := h.contKeepsOpcode hc
    cases hc8.symm.trans ho
    have hclosed : (stamp t (push c 0x00 (preseed (nextBurst t s)))).burstOpen ≠ false := by simp [nextBurst]
    exact runInv_iff.2 ⟨hbound, ⟨rfl, fun h => absurd h hclosed⟩,
      .quad hq le_rfl ⟨c, hc8, hd⟩ fun _ => by simp [push_h2d, nextBurst, contPreseed]⟩

theorem pseudoStep_runInv {s s' : State} {w : Word} {t : Nat} (h : pseudoStep w t s = .next s') (hs : RunInv s) :
    RunInv s' := by
  obtain ⟨-, rfl⟩ | ⟨b, hb, h⟩ := pseudoStep_next_cases h
  · exact hs.stamp_tighten t
  · exact assemble_runInv h (hb.runInv hs)

/-- No invariant reads the samples that wait or the record that is offered. -/
theorem RunInv.withPorts {s : State} (h : RunInv s) (input : List Sample) (out : Option Record) :
    RunInv { s with input := input, out := out } := by
  obtain ⟨⟨hlen, hclosed, hcont, hthr, hq⟩, hop, hw, hts, hopen, hacc⟩ := h
  exact ⟨⟨hlen, hclosed, hcont, hthr, hq⟩, hop, hw, hts, hopen, hacc⟩

theorem step_runInv {s s' : State} (hs : RunInv s) (h : step s = .next s') : RunInv s' := by
  obtain ⟨-, rfl⟩ | ⟨w, t, rest, -, -, h⟩ := step_next_cases h
  · exact hs.withPorts s.input none
  · exact pseudoStep_runInv h (hs.withPorts rest s.out)

theorem resetWith_runInv {c : Config} (h : admitted c = true) : RunInv (State.resetWith c) := by
  simp only [admitted, Bool.and_eq_true, decide_eq_true_eq] at h
  obtain ⟨⟨⟨hlo, hhi⟩, -⟩, -⟩ := h
  exact runInv_iff.2 ⟨⟨le_rfl, ⟨hlo, hhi⟩, fun h => (by cases h), by simp⟩, ⟨rfl, fun _ => rfl⟩,
    .single rfl rfl fun h => (by cases h)⟩

theorem reachable_runInv {c : Config} {s : State} (ha : admitted c = true) (h : Reachable c s) :
    RunInv s ∧ s.cfg = c ∧ s.cfg0 = c := by
  induction h with
  | reset => exact ⟨resetWith_runInv ha, rfl, rfl⟩
  | deliver smp _ ih =>
    obtain ⟨hinv, hc, hc0⟩ := ih
    exact ⟨hinv.withPorts _ _, hc, hc0⟩
  | step _ hstep ih =>
    obtain ⟨hinv, hc, hc0⟩ := ih
    obtain ⟨hcfg, hcfg0, -⟩ := configurationIsReadOnly.2 _ _ hstep
    exact ⟨step_runInv hinv hstep, hcfg.trans hc, hcfg0.trans hc0⟩

/-! ### Refusals and progress -/

/-- With the invariants a sample is stamped or assembled: the refusal of log 12 needs a flag without an opcode. -/
theorem RunInv.pseudoStep_cases {s : State} (h : RunInv s) (w : Word) (t : Nat) :
    (w.getLsbD s.cfg.csBit = true ∧ pseudoStep w t s = .next (stamp t (tighten t s))) ∨
    ∃ b, AssembledIn s w t b ∧ pseudoStep w t s = assemble w b := by
  obtain h' | h' | ⟨hc, ho, -⟩ := Machine.pseudoStep_cases s w t
  · exact .inl h'
  · exact .inr h'
  · obtain ⟨c, hop, -⟩ := h.contKeepsOpcode hc
    cases ho.symm.trans hop

theorem assemble_refused {w : Word} {s : State} {r : Refusal} (h : assemble w s = .refused r) : r = .edgeOverflow := by
  by_cases hfit : EdgeFits s
  · obtain ⟨s1, -, h1⟩ := assemble_of_fits (w := w) hfit
    cases h1.symm.trans h
  · cases (assemble_of_not_fits hfit).symm.trans h
    rfl

theorem edgeFits_of_unbounded {s : State} (h : s.cfg.edgeBits = none) : EdgeFits s := by
  intro k hk
  cases h.symm.trans hk

/-- With an unbounded edge counter an accepted sample is processed to a next state. -/
theorem RunInv.pseudoStep_next {s : State} (h : RunInv s) (hb : s.cfg.edgeBits = none) (w : Word) (t : Nat) :
    ∃ s', pseudoStep w t s = .next s' := by
  obtain ⟨-, h'⟩ | ⟨b, hin, h'⟩ := h.pseudoStep_cases w t
  · exact ⟨_, h'⟩
  · have hcfg : b.cfg = s.cfg := hin.portFrame.1
    obtain ⟨s1, -, h1⟩ := assemble_of_fits (w := w) (edgeFits_of_unbounded (s := b) (by rw [hcfg, hb]))
    exact ⟨_, h'.trans h1⟩

theorem RunInv.step_next {s : State} {smp : Sample} {rest : List Sample} (h : RunInv s) (hin : s.input = smp :: rest)
    (ha : Accepts s smp.t) (hb : s.cfg.edgeBits = none) : ∃ s', step s = .next s' := by
  rw [step_eq_pseudoStep hin ha]
  exact (h.withPorts rest s.out).pseudoStep_next hb _ _

/-- With the invariants a step is refused for the reason of a sample's refusal or by the edge counter. -/
theorem RunInv.step_refused {s : State} {r : Refusal} (h : RunInv s) (hr : step s = .refused r) :
    (∃ s0 t, sampleRefusal s0 t = some r) ∨ r = .edgeOverflow := by
  cases hin : s.input with
  | nil =>
    simp only [step, hin, waitForSample] at hr
    split at hr
    next r' hrun =>
      cases hr
      exact .inl ⟨s, 0, by simp [sampleRefusal, hrun]⟩
    next => cases hr
  | cons smp rest =>
    rw [step_of_input hin] at hr
    cases hs : sampleRefusal { s with input := rest } smp.t with
    | some r' =>
      cases (exec_wholeStep_refused (selectStep_mem_wholeSteps s smp.w smp.t) hs).symm.trans hr
      exact .inl ⟨_, _, hs⟩
    | none =>
      have hr' := (exec_selectStep (w := smp.w) (sampleRefusal_eq_none.1 hs)).symm.trans hr
      obtain ⟨-, h'⟩ | ⟨b, -, h'⟩ := (h.withPorts rest s.out).pseudoStep_cases smp.w smp.t
      · cases h'.symm.trans hr'
      · exact .inr (assemble_refused (h'.symm.trans hr'))

/-! ### A start that ends a truncated data command -/

/-- What a start leaves for its first sample, whether fresh or continuous (40_boundary.md R105, R106). -/
theorem AssembledIn.of_start {s b : State} {w : Word} {t : Nat} (h : AssembledIn s w t b) (hg : s.gapThr < gap s t) :
    b.out = (endOfBurst s).1 ∧ b.addrw = (endOfBurst s).2 ∧ b.cont = s.cont ∧ b.burstOpen = true ∧ b.bStartTs = t ∧
      b.txnCount = s.txnCount + 1 ∧ b.edge ≠ 15 := by
  cases h with
  | active _ hle => exact absurd (tightened_lt_gap_iff.2 hg) (not_lt.2 hle)
  | startFresh => simp [nextBurst]
  | startCont => simp [nextBurst, contPreseed]

theorem endOfBurst_truncated {s : State} {p : Nat} {op : Byte} {bs : List Byte} {e : DataEntry}
    (hlen : s.h2d.length = s.d2h.length) (hb : s.burstOpen = true) (hp : s.lastTs = some p) (hh : s.h2d = op :: bs)
    (he : dataOf s.cfg op = some e) (hlt : bs.length < s.addrw) :
    endOfBurst s = (levelFilter s.cfg (.error op s.addrw s.bStartTs p), s.addrw) := by
  rw [hh] at hlen
  obtain ⟨d, ds, hd⟩ := List.exists_cons_of_length_eq_add_one hlen.symm
  rw [endOfBurst, if_pos hb, hp, hh, hd]
  exact classify_of_truncated d ds _ _ he hlt

end Sys2Proof.Machine
end

section
/-! The statements on the invariants and on progress, of 10_state.md and 60_exceptions.md, each settled from the laws
above. -/

namespace Sys2Proof.Machine

/-- Settles O7: a step waits, stamps the sample, or assembles it in a state with the invariants, and the assembler
keeps them. -/
theorem everyStepKeepsTheInvariants : Obligations.EveryStepKeepsTheInvariants :=
  fun _ _ hs h => step_runInv hs h

/-- Settles O6: after reset no burst is open, nothing is stored, and the width is the configured one. -/
theorem invariantsHoldAtReset : Obligations.InvariantsHoldAtReset :=
  fun _ h => resetWith_runInv h

/-- Settles O8, by induction on the run. -/
theorem invariantsHoldOnEveryRun : Obligations.InvariantsHoldOnEveryRun := by
  intro c s ha h
  obtain ⟨hinv, hcfg⟩ := reachable_runInv ha h
  exact ⟨hinv.toSpecInv, hcfg⟩

/-- Settles O9: a sample's refusal names four of the five reasons, and the edge counter the fifth. -/
theorem refusalsAreTheFiveOfTheSpec : Obligations.RefusalsAreTheFiveOfTheSpec := by
  intro s hs r hr
  obtain ⟨s0, t, h⟩ | rfl := hs.step_refused hr
  · obtain rfl | rfl | rfl | rfl := sampleRefusal_reason h <;> simp
  · simp

/-- Settles O10: with the invariants only the edge counter could refuse an accepted sample, and it is unbounded. -/
theorem acceptedSamplesAlwaysStep : Obligations.AcceptedSamplesAlwaysStep :=
  fun _ _ _ hs hin ha hb => hs.step_next hin ha hb

/-- Settles O57: the start's implicit end gives the record, its first sample keeps what the start leaves, and the state
after it has the invariants again. -/
theorem anErrorNeverStopsTheBlock : Obligations.AnErrorNeverStopsTheBlock := by
  intro s w t rest op bs e hs hin ha hbits hcs hg hb hh he hlt
  obtain ⟨p, hp⟩ := Option.ne_none_iff_exists'.1 (hs.openAfterSample hb)
  have hend := endOfBurst_truncated (s := { s with input := rest }) hs.sameLength hb hp hh he hlt
  obtain ⟨s', hstep⟩ := hs.step_next hin ha hbits
  have hps := (step_eq_pseudoStep hin ha).symm.trans hstep
  obtain ⟨hcs', -⟩ | ⟨b, hin', hasm⟩ := pseudoStep_next_cases hps
  · cases hcs.symm.trans hcs'
  obtain ⟨hout, hwidth, hcont, hopen, hts, htxn, hedge⟩ := hin'.of_start hg
  rw [hend] at hout hwidth
  have hflag := assemble_keepsFlag (not_modeByte_of_edge_ne hedge) w s' hasm
  obtain ⟨hcfg, -⟩ := configurationIsReadOnly.2 s s' hstep
  have hnext := step_runInv hs hstep
  obtain ⟨-, s1, f, rfl⟩ := assemble_eq_next hasm
  refine ⟨p, _, hp, hstep, f.out.trans hout, f.addrw.trans hwidth, hflag.trans hcont, f.burstOpen.trans hopen,
    f.bStartTs.trans hts, f.txnCount.trans htxn, fun w' t' ha' => ?_⟩
  exact (hnext.withPorts [⟨w', t'⟩] _).step_next rfl (ha'.withInput _) (by rw [hcfg, hbits])

end Sys2Proof.Machine
end

section
/-! SUPPORT. Runs of the lane assembler: eight single-lane samples carry a byte on each lane, and two quad samples carry
one on four (41_lane_assembler.md section 5). -/

namespace Sys2Proof.Machine

/-! ### Bytes, bit by bit -/

theorem getElem_shiftBit_zero (acc : Byte) (b : Bool) : (shiftBit acc b)[0] = b := by
  cases b <;> simp [shiftBit]

theorem getElem_shiftBit_succ (acc : Byte) (b : Bool) {i : Nat} (h : i + 1 < 8) :
    (shiftBit acc b)[i + 1] = acc[i] := by
  simp [shiftBit]

/-- Bits shifted into an accumulator, in order. -/
def shiftBits (acc : Byte) (bits : List Bool) : Byte := bits.foldl shiftBit acc

/-- Eight bits, MSB first, replace whatever the accumulator held (20_memory.md R53). -/
theorem shiftBits_byte (acc h : Byte) : shiftBits acc ((List.range 8).map fun i => h.getLsbD (7 - i)) = h := by
  apply BitVec.eq_of_getElem_eq
  intro i hi
  interval_cases i <;>
    simp [shiftBits, List.range, List.range.loop, getElem_shiftBit_zero, getElem_shiftBit_succ]

/-- Two nibbles, the first one high, replace whatever the accumulator held (20_memory.md R54). -/
theorem shiftNib_shiftNib (acc : Byte) (n1 n2 : Nibble) : shiftNib (shiftNib acc n1) n2 = n1 ++ n2 := by
  apply BitVec.eq_of_toNat_eq
  rw [shiftNib_eq_ofNat, shiftNib_eq_ofNat, BitVec.toNat_ofNat, BitVec.toNat_ofNat, BitVec.toNat_append,
    ← Nat.shiftLeft_add_eq_or_of_lt n2.isLt, Nat.shiftLeft_eq]
  have h1 := n1.isLt
  have h2 := n2.isLt
  omega

/-! ### Sequences of samples -/

theorem assembleAll_cons (w : Word) (ws : List Word) (s : State) :
    assembleAll (w :: ws) s = andThen (assemble w s) (assembleAll ws) := rfl

theorem assembleAll_append (ws ws' : List Word) (s : State) :
    assembleAll (ws ++ ws') s = andThen (assembleAll ws s) (assembleAll ws') := by
  induction ws generalizing s with
  | nil => rfl
  | cons w ws ih =>
    rw [List.cons_append, assembleAll_cons, assembleAll_cons]
    cases h : assemble w s with
    | next s1 => exact ih s1
    | fault r => cases r
    | refused r => rfl

/-- With no quad threshold every sample is single-lane. -/
theorem singleLane_of_no_threshold {s : State} (h : s.qthr = none) : SingleLane s := by
  intro q hq
  cases h.symm.trans hq

theorem not_quadFlush_of_no_threshold {s : State} (h : s.qthr = none) : ¬ QuadFlush s := by
  rintro ⟨q, hq, -⟩
  cases h.symm.trans hq

/-- The state after single-lane samples none of which is flushed: they are shifted in and counted. -/
def shiftIn (ws : List Word) (s : State) : State :=
  { s with
    edge := s.edge + ws.length
    accHo := shiftBits s.accHo (ws.map fun w => w.getLsbD s.cfg.hoBit)
    accDi := shiftBits s.accDi (ws.map fun w => w.getLsbD s.cfg.diBit) }

theorem assembleAll_shiftIn {s : State} (ws : List Word) (hq : s.qthr = none) (hb : s.cfg.edgeBits = none)
    (he : s.edge % 8 + ws.length ≤ 7) : assembleAll ws s = .next (shiftIn ws s) := by
  induction ws generalizing s with
  | nil => rfl
  | cons w ws ih =>
    rw [List.length_cons] at he
    have hfit : EdgeFits (shiftLanes w s) := edgeFits_of_unbounded hb
    rw [assembleAll_cons, assemble_singleLane_noFlush (singleLane_of_no_threshold hq) (by omega),
      execEdgeInc_of_fits hfit, andThen_next,
      ih (s := countEdge (shiftLanes w s)) hq hb (by rw [countEdge_edge, shiftLanes_edge]; omega)]
    simp [shiftIn, countEdge, shiftLanes, shiftBits, hostOut, deviceIn, Nat.add_assoc, Nat.add_comm 1]

/-- Eight samples that carry a byte pair leave it in the accumulators, whatever these held. -/
theorem CarriesByte.acc {s : State} {ws : List Word} {w : Word} {h d : Byte}
    (hw : CarriesByte s.cfg (ws ++ [w]) h d) :
    (shiftLanes w (shiftIn ws s)).accHo = h ∧ (shiftLanes w (shiftIn ws s)).accDi = d := by
  have snoc : ∀ acc bits b, shiftBit (shiftBits acc bits) b = shiftBits acc (bits ++ [b]) := by simp [shiftBits]
  obtain ⟨hho, hdi⟩ := hw
  rw [List.map_append] at hho hdi
  constructor
  · refine (snoc _ _ _).trans ?_
    rw [← shiftBits_byte s.accHo h, ← hho]
    rfl
  · refine (snoc _ _ _).trans ?_
    rw [← shiftBits_byte s.accDi d, ← hdi]
    rfl

/-- The state `s'` has one byte pair more than `s`, in a single-lane burst that is still open; the byte at edge 7 is the
opcode (41_lane_assembler.md R133, R134). -/
structure BytePushed (h d : Byte) (s s' : State) : Prop where
  cfg : s'.cfg = s.cfg
  burstOpen : s'.burstOpen = true
  qthr : s'.qthr = none
  h2d : s'.h2d = s.h2d ++ [h]
  d2h : s'.d2h = s.d2h ++ [d]
  opcode : s'.opcode = if s.edge = 7 then some h else s.opcode

/-- Every eighth single-lane sample of a burst that stays on single lanes pushes the two accumulators. -/
theorem assemble_flush {s : State} (w : Word) (hopen : s.burstOpen = true) (hq : s.qthr = none)
    (hb : s.cfg.edgeBits = none) (he : s.edge % 8 = 7)
    (hc : s.edge = 7 → contOf s.cfg (shiftLanes w s).accHo = none) :
    ∃ s', assemble w s = .next s' ∧ s'.edge = s.edge + 1 ∧
      BytePushed (shiftLanes w s).accHo (shiftLanes w s).accDi s s' := by
  have hpush : pushLanes (shiftLanes w s) =
      addPair (shiftLanes w s).accHo (shiftLanes w s).accDi (shiftLanes w s) := if_pos hopen
  obtain ⟨s1, hl, hasm⟩ := assemble_laneStep w s
  cases hl with
  | slShift _ hne => exact absurd he hne
  | slFlush _ _ h7 =>
    rw [hpush] at hasm
    exact ⟨_, hasm.trans (execEdgeInc_of_fits (edgeFits_of_unbounded hb)), rfl,
      ⟨rfl, hopen, hq, rfl, rfl, by rw [if_neg h7]; rfl⟩⟩
  | slOpcode _ h7 =>
    rw [hpush] at hasm
    exact ⟨_, hasm.trans (execEdgeInc_of_fits (edgeFits_of_unbounded hb)), rfl,
      ⟨rfl, hopen, hq, rfl, rfl, by rw [if_pos h7]; rfl⟩⟩
  | slSwitch _ h7 hd => cases (hc h7).symm.trans hd
  | qShift hq' => cases hq.symm.trans hq'
  | qFlush hf => exact absurd hf (not_quadFlush_of_no_threshold hq)
  | qMode hm => exact absurd hm.1 (not_quadFlush_of_no_threshold hq)

theorem CarriesByte.exists_last {c : Config} {ws : List Word} {h d : Byte} (hw : CarriesByte c ws h d) :
    ∃ init w, ws = init ++ [w] ∧ init.length = 7 := by
  have hlen : ws.length = 8 := by simpa using congrArg List.length hw.1
  have hne : ws ≠ [] := by rintro rfl; cases hlen
  exact ⟨ws.dropLast, ws.getLast hne, (List.dropLast_append_getLast hne).symm, by rw [List.length_dropLast, hlen]⟩

/-- The eight samples of a byte pair, from a byte boundary on. -/
theorem assembleAll_byte {s : State} {ws : List Word} {h d : Byte} (hopen : s.burstOpen = true) (hq : s.qthr = none)
    (hb : s.cfg.edgeBits = none) (he : s.edge % 8 = 0) (hc : s.edge = 0 → contOf s.cfg h = none)
    (hw : CarriesByte s.cfg ws h d) :
    ∃ s', assembleAll ws s = .next s' ∧ s'.edge = s.edge + 8 ∧ BytePushed h d { s with edge := s.edge + 7 } s' := by
  obtain ⟨init, w, rfl, hlen⟩ := hw.exists_last
  obtain ⟨hho, hdi⟩ := hw.acc
  have hedge7 : (shiftIn init s).edge = s.edge + 7 := congrArg (s.edge + ·) hlen
  obtain ⟨s', hasm, hedge, hbyte⟩ := assemble_flush (s := shiftIn init s) w hopen hq hb (by omega)
    (fun h7 => by rw [hho]; exact hc (by omega))
  rw [hho, hdi] at hbyte
  obtain ⟨hcfg, hop, hqt, hh, hd, hopc⟩ := hbyte
  refine ⟨s', ?_, by omega, ⟨hcfg, hop, hqt, hh, hd, by rw [hopc, hedge7]; rfl⟩⟩
  rw [assembleAll_append, assembleAll_shiftIn init hq hb (by omega), andThen_next, assembleAll_cons, hasm]
  rfl

/-- Any number of byte pairs after the opcode. -/
theorem assembleAll_bytes {s : State} {blocks : List (List Word)} {pairs : List (Byte × Byte)}
    (hopen : s.burstOpen = true) (hq : s.qthr = none) (hb : s.cfg.edgeBits = none) (he : s.edge % 8 = 0)
    (h0 : s.edge ≠ 0) (hw : List.Forall₂ (fun ws hd => CarriesByte s.cfg ws hd.1 hd.2) blocks pairs) :
    ∃ s', assembleAll blocks.flatten s = .next s' ∧ s'.h2d = s.h2d ++ pairs.map Prod.fst ∧
      s'.d2h = s.d2h ++ pairs.map Prod.snd ∧ s'.opcode = s.opcode ∧ s'.qthr = none ∧
      s'.edge = s.edge + 8 * pairs.length := by
  induction pairs generalizing s blocks with
  | nil =>
    cases hw
    exact ⟨s, rfl, by simp, by simp, rfl, hq, rfl⟩
  | cons hd pairs ih =>
    cases hw with
    | @cons ws _ blocks _ hbyte hrest =>
    obtain ⟨s1, h1, hedge, hcfg, hopen1, hq1, hh, hd, ho⟩ :=
      assembleAll_byte hopen hq hb he (fun h => absurd h h0) hbyte
    rw [if_neg (by simpa using h0)] at ho
    obtain ⟨s2, h2, hh2, hd2, ho2, hq2, hedge2⟩ := ih (s := s1) (blocks := blocks) hopen1 hq1 (by rw [hcfg]; exact hb)
      (by omega) (by omega) (by rw [hcfg]; exact hrest)
    refine ⟨s2, ?_, by simp [hh2, hh], by simp [hd2, hd], ho2.trans ho, hq2, ?_⟩
    · rw [List.flatten_cons, assembleAll_append, h1, andThen_next, h2]
    · rw [hedge2, hedge, List.length_cons]
      omega

/-! ### Two quad samples -/

theorem pushQuad_laneFrame (s : State) : LaneFrame s (pushQuad s) := by
  unfold pushQuad
  split <;> exact push_laneFrame _ _ s

/-- The sample that completes a quad byte pushes it in its direction and, as the mode byte, has it tracked. -/
theorem assemble_quadFlush {s : State} (w : Word) (hf : QuadFlush s) (hfit : EdgeFits s) :
    ∃ s', assemble w s = .next s' ∧ s'.edge = s.edge + 1 ∧ s'.h2d = (pushQuad (shiftNibble w s)).h2d ∧
      s'.d2h = (pushQuad (shiftNibble w s)).d2h ∧
      (ModeByte s → s'.cont = modeSaysContinue (shiftNibble w s).accQ) := by
  have f := pushQuad_laneFrame (shiftNibble w s)
  have hfit' : EdgeFits (pushQuad (shiftNibble w s)) := f.edgeFits.2 hfit
  have hedge : (pushQuad (shiftNibble w s)).edge + 1 = s.edge + 1 := congrArg (· + 1) f.edge
  rw [assemble_quadPhase hf.quadPhase]
  by_cases hm : ModeByte s
  · have fm := (setCont_laneFrame (modeSaysContinue (shiftNibble w s).accQ) (pushQuad (shiftNibble w s))).trans
      (clearNibble_laneFrame _)
    rw [execQFlush_of_modeByte (s := shiftNibble w s) w hm, andThen_next, execEdgeInc_of_fits (fm.edgeFits.2 hfit')]
    exact ⟨_, rfl, hedge, rfl, rfl, fun _ => rfl⟩
  · rw [execQFlush_of_not_modeByte (s := shiftNibble w s) w hf hm, andThen_next,
      execEdgeInc_of_fits ((clearNibble_laneFrame _).edgeFits.2 hfit')]
    exact ⟨_, rfl, hedge, rfl, rfl, fun h => absurd h hm⟩

/-! ### Rows outside their condition (log 11) -/

section
variable {s : State} (w : Word)

theorem execSlShift_outside (h : ¬ SingleLane s) : execSlShift w s = .next s := by
  have hq : quadPhase s = true := by rwa [← quadPhase_eq_false, Bool.not_eq_false] at h
  simp [execSlShift, hq]

theorem execSlFlush_outside (h : ¬ (SingleLane s ∧ s.edge % 8 = 7)) : execSlFlush w s = .next s := by
  simp [execSlFlush, mt slFlushAt_iff.1 h]

theorem execSlOpcode_outside (h : ¬ (SingleLane s ∧ s.edge = 7)) : execSlOpcode w s = .next s := by
  simp [execSlOpcode, mt slOpcodeAt_iff.1 h]

theorem execSlContDetect_outside (h : ¬ (SingleLane s ∧ s.edge = 7)) : execSlContDetect w s = .next s := by
  simp [execSlContDetect, mt slOpcodeAt_iff.1 h]

theorem execQShift_outside (h : SingleLane s) : execQShift w s = .next s := by
  simp [execQShift, quadPhase_eq_false.2 h]

theorem execQFlush_outside (h : ¬ QuadFlush s) : execQFlush w s = .next s := by
  simp [execQFlush, mt qFlushAt_iff.1 h]

theorem execQDirection_outside (h : ¬ QuadFlush s) : execQDirection w s = .next s := by
  simp [execQDirection, mt qFlushAt_iff.1 h]

end

end Sys2Proof.Machine
end

section
/-! The statements of 41_lane_assembler.md on runs of the assembler and on rows outside their condition, each settled
from the laws above. -/

namespace Sys2Proof.Machine

/-- Settles O38: the opcode's block, which captures and does not switch, and then the others, by induction. -/
theorem singleLaneRoundTrip : Obligations.SingleLaneRoundTrip := by
  intro s op d0 pairs blocks hopen hh hd he hq hb hc hw
  obtain _ | @⟨ws, _, blocks, _, hop, hrest⟩ := hw
  obtain ⟨s1, h1, hedge, hcfg, hopen1, hq1, hh1, hd1, ho1⟩ :=
    assembleAll_byte hopen hq hb (by rw [he]) (fun _ => hc) hop
  rw [if_pos (by simp [he])] at ho1
  obtain ⟨s2, h2, hh2, hd2, ho2, hq2, hedge2⟩ := assembleAll_bytes (s := s1) hopen1 hq1 (by rw [hcfg]; exact hb)
    (by omega) (by omega) (by rw [hcfg]; exact hrest)
  refine ⟨s2, ?_, by simp [hh2, hh1, hh], by simp [hd2, hd1, hd], ho2.trans ho1, hq2, by omega⟩
  rw [List.flatten_cons, assembleAll_append, h1, andThen_next, h2]

/-- Settles O39: the first nibble is shifted in, and the second completes the byte, which is pushed at the end of both
sequences in the direction that its edge gives. -/
theorem quadBytePosition : Obligations.QuadBytePosition := by
  intro s w1 w2 k b hopen hq he hh hd hbits hb
  set s1 := countEdge (shiftNibble w1 s) with hs1
  have hfirst : assemble w1 s = .next s1 :=
    (assemble_quad_noFlush hq (by omega) (by omega)).trans (execEdgeInc_of_fits (edgeFits_of_unbounded hbits))
  have hedge1 : s1.edge = 9 + 2 * k := by rw [hs1, countEdge_edge, shiftNibble_edge]; omega
  have hf : QuadFlush s1 := ⟨8, hq, by omega, by omega⟩
  have hacc : (shiftNibble w2 s1).accQ = b := (shiftNib_shiftNib _ _ _).trans hb.symm
  obtain ⟨s', hsecond, hedge, hh', hd', hcont⟩ := assemble_quadFlush w2 hf (edgeFits_of_unbounded hbits)
  have pushed : ∀ x y, pushQuad (shiftNibble w2 s1) = push x y (shiftNibble w2 s1) →
      s'.h2d[1 + k]? = some x ∧ s'.d2h[1 + k]? = some y := by
    intro x y hpush
    have hopen1 : (shiftNibble w2 s1).burstOpen = true := hopen
    rw [hh', hd', hpush, push_h2d, push_d2h, if_pos hopen1, if_pos hopen1]
    exact ⟨hh ▸ List.getElem?_concat_length, hd ▸ List.getElem?_concat_length⟩
  refine ⟨s', ?_, by omega, fun hle => pushed _ _ ?_, fun hlt => pushed _ _ ?_, fun hk ⟨c, ho, hc⟩ => ?_⟩
  · rw [assembleAll_cons, hfirst, andThen_next, assembleAll_cons, hsecond]
    rfl
  · rw [pushQuad_of_hostToDevice (s := shiftNibble w2 s1) (hedge1.trans_le hle), hacc]
  · rw [pushQuad_of_deviceToHost (s := shiftNibble w2 s1) (hlt.trans_eq hedge1.symm), hacc]
  · have hmode : ModeByte s1 := ⟨hf, by omega, c, ho, hc⟩
    rw [hcont hmode, hacc]
    rfl

/-- Settles O35: each row's guard is its condition. -/
theorem rowsOutsideTheirConditionChangeNothing : Obligations.RowsOutsideTheirConditionChangeNothing := by
  intro s w
  simp only [List.forall_mem_cons, List.not_mem_nil, false_imp_iff, implies_true, and_true]
  refine ⟨fun h => ?_, fun h => execSlFlush_outside w fun h' => h h'.2, fun h => ?_, execQShift_outside w, fun h => ?_,
    fun h => ⟨execQMode_of_not_modeByte w h, execTrack_of_not_modeByte w h⟩⟩
  · exact ⟨execSlShift_outside w h, execSlFlush_outside w fun h' => h h'.1, execSlOpcode_outside w fun h' => h h'.1,
      execSlContDetect_outside w fun h' => h h'.1⟩
  · exact ⟨execSlOpcode_outside w fun h' => h h'.2, execSlContDetect_outside w fun h' => h h'.2⟩
  · exact ⟨execQFlush_outside w h, execQDirection_outside w h, execQMode_of_not_modeByte w fun h' => h h'.1,
      execTrack_of_not_modeByte w fun h' => h h'.1⟩

/-- Settles O37: the two cases of the open flag. -/
theorem pushOrCountOrphan : Obligations.PushOrCountOrphan :=
  fun _ _ _ => ⟨fun hb => if_pos hb, fun hb => if_neg (by simp [hb])⟩

end Sys2Proof.Machine
end

section
/-! SUPPORT. The command rows and the classifier's width; which configurations are admitted; the level filter as a
guard on a stream of records. -/

namespace Sys2Proof.Machine

/-! ### Admitted configurations (00_scope.md R7, 30_encoding.md R76) -/

theorem risingKeys_iff {α : Type} (l : List (Byte × α)) :
    risingKeys l = true ↔ l.Pairwise (fun a b => a.1.toNat < b.1.toNat) := by
  have htrans : IsTrans (Byte × α) fun a b => a.1.toNat < b.1.toNat := ⟨fun _ _ _ => lt_trans⟩
  rw [← List.isChain_iff_pairwise]
  induction l with
  | nil => simp [risingKeys]
  | cons a l ih =>
    cases l with
    | nil => simp [risingKeys]
    | cons b l => simp only [risingKeys, Bool.and_eq_true, decide_eq_true_eq, ih, List.isChain_cons_cons]

theorem tableAdmitted_iff (c : Config) : tableAdmitted c = true ↔
    (∃ n, ctrlOf c c.cmdtab.en4b = some n) ∧ (∃ n, ctrlOf c c.cmdtab.ex4b = some n) ∧
    dataOf c c.cmdtab.en4b = none ∧ dataOf c c.cmdtab.ex4b = none ∧ c.cmdtab.en4b ≠ c.cmdtab.ex4b ∧
    c.cmdtab.data.Pairwise (fun a b => a.1.toNat < b.1.toNat) ∧
    c.cmdtab.ctrl.Pairwise (fun a b => a.1.toNat < b.1.toNat) ∧
    c.cmdtab.cont.Pairwise (fun a b => a.1.toNat < b.1.toNat) := by
  simp only [tableAdmitted, Bool.and_eq_true, Option.isSome_iff_exists, Option.isNone_iff_eq_none, bne_iff_ne,
    risingKeys_iff, and_assoc]

theorem laneAdmitted_iff (c : Config) (b : Nat) : laneAdmitted c b = true ↔
    2 ≤ b ∧ b ≤ 14 ∧ b ≠ c.csBit ∧ b ≠ c.hoBit ∧ b ≠ c.diBit := by
  simp only [laneAdmitted, Bool.and_eq_true, decide_eq_true_eq, bne_iff_ne, and_assoc]

theorem bitIndex_iff (b : Nat) : bitIndex b = true ↔ b < 16 := decide_eq_true_iff

theorem positionsAdmitted_iff (c : Config) : positionsAdmitted c = true ↔
    (∀ b ∈ [c.csBit, c.hoBit, c.diBit], b < 16) ∧
    (∀ b ∈ [c.lane2Bit, c.lane3Bit], 2 ≤ b ∧ b ≤ 14 ∧ b ≠ c.csBit ∧ b ≠ c.hoBit ∧ b ≠ c.diBit) ∧
    c.lane2Bit ≠ c.lane3Bit := by
  simp only [positionsAdmitted, bitIndex_iff, Bool.and_eq_true, laneAdmitted_iff, bne_iff_ne,
    List.forall_mem_cons, List.not_mem_nil, false_imp_iff, implies_true, and_true, and_assoc]

/-! ### The command rows -/

/-- Every command row with its opcode, under a command table. -/
abbrev rowOpcodes (tab : CmdTab) (op : Byte) : List (Instr × Byte) :=
  [(.read, 0x03), (.fastRead, 0x0B), (.read4b, 0x13), (.quadRead6b, 0x6B), (.quadRead, 0xEB), (.en4b, tab.en4b),
    (.ex4b, tab.ex4b), (.unknown op, op)]

theorem exec_rowOpcode {i : Instr} {s : State} {op b : Byte} (hi : (i, b) ∈ rowOpcodes s.cfg.cmdtab op) :
    exec i s = commandRow b s := by
  simp only [List.mem_cons, Prod.mk.injEq, List.not_mem_nil, or_false] at hi
  obtain ⟨rfl, rfl⟩ | ⟨rfl, rfl⟩ | ⟨rfl, rfl⟩ | ⟨rfl, rfl⟩ | ⟨rfl, rfl⟩ | ⟨rfl, rfl⟩ | ⟨rfl, rfl⟩ | ⟨rfl, rfl⟩ := hi <;>
    rfl

/-- The row that a command byte decodes to is one of that opcode. -/
theorem decodeCommand_mem_rowOpcodes (tab : CmdTab) (op : Byte) : (decodeCommand tab op, op) ∈ rowOpcodes tab op := by
  unfold decodeCommand
  split_ifs <;> simp_all

theorem exec_decodeCommand (op : Byte) (s : State) : exec (decodeCommand s.cfg.cmdtab op) s = commandRow op s :=
  exec_rowOpcode (decodeCommand_mem_rowOpcodes _ op)

/-- A command row needs an open burst of its opcode and a sample before (log 15). -/
theorem commandRow_outside {op : Byte} {s : State}
    (h : s.burstOpen = false ∨ s.lastTs = none ∨ s.h2d.head? ≠ some op) : commandRow op s = .next s := by
  obtain h' | ⟨p, hp, hb, hh, -⟩ := commandRow_next op s
  · exact h'
  · obtain h | h | h := h
    · cases hb.symm.trans h
    · cases hp.symm.trans h
    · exact absurd hh h

/-! ### The width -/

/-- The classifier changes the width for a switch opcode only, to that opcode's width (43_classifier.md R180). -/
theorem classify_width_changed {c : Config} {aw : Nat} {h2d d2h : List Byte} {ts0 ts1 : Nat}
    (h : (classify c aw h2d d2h ts0 ts1).2 ≠ aw) : ∃ op, h2d.head? = some op ∧
      ((op = c.cmdtab.en4b ∧ (classify c aw h2d d2h ts0 ts1).2 = 4) ∨
        (op = c.cmdtab.ex4b ∧ (classify c aw h2d d2h ts0 ts1).2 = 3)) := by
  by_cases hempty : h2d = [] ∨ d2h = []
  · exact absurd (by rw [classify_of_empty c aw ts0 ts1 hempty]) h
  obtain ⟨hh, hd⟩ := not_or.1 hempty
  obtain ⟨op, rest, rfl⟩ := List.exists_cons_of_ne_nil hh
  obtain ⟨d, ds, rfl⟩ := List.exists_cons_of_ne_nil hd
  cases he : dataOf c op with
  | some e => exact absurd (by rw [classify_of_data d ds ts0 ts1 he]) h
  | none =>
    cases hn : ctrlOf c op with
    | none => exact absurd (by rw [classify_of_unknown d ds ts0 ts1 he hn]) h
    | some n =>
      rw [classify_of_control d ds ts0 ts1 he hn] at h ⊢
      refine ⟨op, rfl, ?_⟩
      by_cases hex : op = c.cmdtab.ex4b
      · exact .inr ⟨hex, by rw [hex, widthAfter_ex4b]⟩
      · by_cases hen : op = c.cmdtab.en4b
        · exact .inl ⟨hen, by rw [widthAfter, if_neg hex, if_pos hen]⟩
        · exact absurd (widthAfter_of_ne aw hen hex) h

/-- The width is as before, or it is what the classifier makes of the open burst. -/
def WidthFromClassifier (s s' : State) : Prop :=
  s'.addrw = s.addrw ∨ ∃ ts1, s'.addrw = (classify s.cfg s.addrw s.h2d s.d2h s.bStartTs ts1).2

theorem commandRow_width {op : Byte} {s s' : State} (h : commandRow op s = .next s') : WidthFromClassifier s s' := by
  obtain h' | ⟨p, -, -, -, h'⟩ := commandRow_next op s <;> cases h'.symm.trans h
  · exact .inl rfl
  · exact .inr ⟨p, classifyBurst_addrw p s⟩

theorem endOfBurst_widthFromClassifier (s : State) :
    (endOfBurst s).2 = s.addrw ∨ ∃ ts1, (endOfBurst s).2 = (classify s.cfg s.addrw s.h2d s.d2h s.bStartTs ts1).2 := by
  unfold endOfBurst
  split
  · exact .inr ⟨_, rfl⟩
  · exact .inl rfl

/-- The width in the state in which a sample is assembled: a start's implicit end has classified the open burst. -/
theorem AssembledIn.width {s b : State} {w : Word} {t : Nat} (h : AssembledIn s w t b) : b.addrw = s.addrw ∨
    ((selectStep s w t = .stepStartFresh w t ∨ selectStep s w t = .stepStartCont w t) ∧
      b.addrw = (endOfBurst s).2) := by
  cases h with
  | active => exact .inl rfl
  | startFresh hcs hg hc =>
    exact .inr ⟨.inl (selectStep_of_freshSample (by simp [freshSample, startsBurst, csHigh, hcs, hg, hc])), rfl⟩
  | startCont hcs hg hc =>
    exact .inr ⟨.inr (selectStep_of_contSample (by simp [contSample, startsBurst, csHigh, hcs, hg, hc])),
      push_addrw _ _ _⟩

/-- A whole step keeps the width, or it is a start, whose implicit end classifies the open burst. -/
theorem exec_wholeStep_width {i : Instr} {s s' : State} {w : Word} {t : Nat} (hi : i ∈ wholeSteps w t)
    (h : exec i s = .next s') : s'.addrw = s.addrw ∨
      ((i = .stepStartFresh w t ∨ i = .stepStartCont w t) ∧ WidthFromClassifier s s') := by
  have ha := accepts_of_exec_wholeStep hi h
  by_cases hsel : i = selectStep s w t
  · rw [hsel, exec_selectStep ha] at h
    obtain ⟨-, rfl⟩ | ⟨b, hb, h⟩ := pseudoStep_next_cases h
    · exact .inl rfl
    · obtain ⟨-, s1, f, rfl⟩ := assemble_eq_next h
      obtain hw | ⟨hstart, hw⟩ := hb.width
      · exact .inl (f.addrw.trans hw)
      · refine .inr ⟨hsel ▸ hstart, ?_⟩
        rw [WidthFromClassifier, countEdge_addrw, f.addrw, hw]
        exact endOfBurst_widthFromClassifier s
  · cases (exec_wholeStep_not_selected ha hi hsel).symm.trans h
    exact .inl rfl

/-- The rows that classify a burst: the two starts and the command rows. -/
abbrev classifyingRows (w : Word) (t : Nat) (op : Byte) : List Instr :=
  [.stepStartFresh w t, .stepStartCont w t, .read, .fastRead, .read4b, .quadRead6b, .quadRead, .en4b, .ex4b,
    .unknown op]

theorem exec_width {i : Instr} {s s' : State} (h : exec i s = .next s') : s'.addrw = s.addrw ∨
    (WidthFromClassifier s s' ∧ ∃ w t op, i ∈ classifyingRows w t op) := by
  cases i
  case stepIdle w t | stepActive w t | stepStartFresh w t | stepStartCont w t =>
    obtain hw | ⟨hstart, hw⟩ := exec_wholeStep_width (w := w) (t := t) (by simp) h
    · exact .inl hw
    · exact .inr ⟨hw, w, t, 0, by obtain hi | hi := hstart <;> simp [hi]⟩
  case slShift w | slFlush w | slOpcode w | slContDetect w | qShift w | qFlush w | qDirection w | qMode w | track w =>
    exact .inl ((exec_laneRow_keeps (w := w) (by simp) s).frame h).addrw
  case edgeInc w =>
    obtain ⟨-, rfl⟩ := (execEdgeInc_eq_next (w := w)).1 h
    exact .inl rfl
  case unknown op => exact .inr ⟨commandRow_width h, 0, 0, op, by simp⟩
  case read | fastRead | read4b | quadRead6b | quadRead | en4b | ex4b =>
    exact .inr ⟨commandRow_width h, 0, 0, 0, by simp⟩

/-! ### The level filter (44_filters.md R211, R213) -/

theorem levelFilter_eq_guard (c : Config) :
    levelFilter c = Option.guard fun r => levelPasses c r.category := by
  funext r
  simp [levelFilter, Option.guard]

theorem filterMap_levelFilter (c : Config) (rs : List Record) :
    rs.filterMap (levelFilter c) = rs.filter fun r => levelPasses c r.category := by
  rw [levelFilter_eq_guard, List.filterMap_eq_filter]

theorem levelFilter_of_everything {c : Config} (h : c.level = .everything) (r : Record) : levelFilter c r = some r := by
  cases hr : r.category <;> simp [levelFilter, levelPasses, h, hr]

theorem addrPass_of_no_bounds {c : Config} (hmin : c.addrMin = 0) (hmax : c.addrMax = none) (addr : Nat) :
    addrPass c addr = true := by
  simp [addrPass, hmin, hmax]

end Sys2Proof.Machine
end

section
/-! The statements on configurations, command rows, the width and the level filter, each settled from the laws above. -/

namespace Sys2Proof.Machine

/-- Settles O21: the checks of the width, the table and the positions, each as what it says. -/
theorem admittedConfigurations : Obligations.AdmittedConfigurations := by
  intro c
  have hwidth : (1 ≤ c.initAddrWidth ∧ c.initAddrWidth ≤ 4) ↔ c.initAddrWidth ∈ [1, 2, 3, 4] := by
    simp only [List.mem_cons, List.not_mem_nil, or_false]
    omega
  simp only [admitted, Bool.and_eq_true, decide_eq_true_eq, tableAdmitted_iff, positionsAdmitted_iff, hwidth]
  tauto

/-- Settles O36: a whole step is the selected one or does nothing; a command row needs its burst. -/
theorem stepsAndCommandsOutsideTheirConditionChangeNothing :
    Obligations.StepsAndCommandsOutsideTheirConditionChangeNothing :=
  ⟨fun _ _ _ ha _ hi hne => exec_wholeStep_not_selected ha hi hne,
    fun _ _ _ hi h => (exec_rowOpcode hi).trans (commandRow_outside h)⟩

/-- Settles O13: both sides are the row operation of the burst's first byte, which classifies the burst. -/
theorem implicitEndRunsTheCommandRow : Obligations.ImplicitEndRunsTheCommandRow := by
  intro s op rest hb hh
  have hrow : implicitEnd s = commandRow op s := by simp [implicitEnd, hb, hh, runCommand_eq_commandRow]
  exact ⟨hrow.trans (exec_decodeCommand op s).symm, fun p hp => hrow.trans (commandRow_of_burst hb hp hh)⟩

/-- Settles O41: an admitted table lists both switch opcodes as control only, and keeps them apart. -/
theorem widthSwitchRows : Obligations.WidthSwitchRows := by
  intro s p d rest ds ha hb hp hd
  simp only [admitted, Bool.and_eq_true, tableAdmitted_iff] at ha
  obtain ⟨⟨-, ⟨n, hn⟩, ⟨m, hm⟩, hdn, hdm, hne, -⟩, -⟩ := ha
  have switch : ∀ op name aw, dataOf s.cfg op = none → ctrlOf s.cfg op = some name → widthAfter s.cfg s.addrw op = aw →
      s.h2d = op :: rest → commandRow op s =
        .next { s with out := levelFilter s.cfg (.control op (.known name) s.bStartTs p), addrw := aw } := by
    rintro op name aw hdata hctrl rfl hh
    have hc := classify_of_control (aw := s.addrw) (rest := rest) d ds s.bStartTs p hdata hctrl
    rw [← hh, ← hd] at hc
    rw [commandRow_of_burst hb hp hh, classifyBurst, hc]
    rfl
  exact ⟨fun hh => ⟨n, hn, switch _ n 4 hdn hn (widthAfter_en4b _ hne) hh⟩,
    fun hh => ⟨m, hm, switch _ m 3 hdm hm (widthAfter_ex4b _ _) hh⟩⟩

/-- Settles O47: the header is three address bytes, `HDR_BASE` = 2 with the opcode in it, and the table's adjustment. -/
theorem headerIdentities : Obligations.HeaderIdentities := by
  intro c op d adj P rest ds ts0 ts1 htab hlevel hmin hmax hop hlen
  have hentry : ∃ e, dataOf c op = some e ∧ e.adj = adj := by
    simp only [List.mem_cons, Prod.mk.injEq, List.not_mem_nil, or_false] at hop
    obtain ⟨rfl, rfl⟩ | ⟨rfl, rfl⟩ | ⟨rfl, rfl⟩ := hop <;> exact ⟨_, dataOf_of_refCmdTab htab _, rfl⟩
  obtain ⟨e, he, rfl⟩ := hentry
  rw [List.length_cons] at hlen
  have hcount : (rest.length + 1 : Int) - (3 + 2 + e.adj) = P := by omega
  refine ⟨e.name, ?_⟩
  rw [classify_of_passed d ds ts0 ts1 he (by omega) (addrPass_of_no_bounds hmin hmax _),
    levelFilter_of_everything hlevel, addressOf_cons]
  simp only [Nat.cast_ofNat, hcount]

/-- Settles O53: a changed width is the classifier's, which changes it for a switch opcode only. -/
theorem onlyTheClassifierWritesTheWidth : Obligations.OnlyTheClassifierWritesTheWidth := by
  intro i s s' h hne
  obtain hw | ⟨hw, hrow⟩ := exec_width h
  · exact absurd hw hne
  obtain hw | ⟨ts1, hw⟩ := hw
  · exact absurd hw hne
  rw [hw] at hne ⊢
  exact ⟨classify_width_changed hne, hrow⟩

/-- Settles O51: the level filter keeps the records of one predicate, in their order. -/
theorem levelFilterIdempotent : Obligations.LevelFilterIdempotent := by
  intro c rs
  simp only [filterMap_levelFilter]
  exact ⟨by simp only [List.filter_filter, Bool.and_self], List.filter_sublist⟩

end Sys2Proof.Machine
end

section
/-! SUPPORT. What the rules do not read: of a sample word everything but the five configured bits (30_encoding.md R70,
R72), and the two diagnostic counters (60_exceptions.md R239). -/

namespace Sys2Proof.Machine

/-! ### The unread bits of a sample word -/

/-- Two sample words agree on chip select and on the four lanes. -/
structure SameLanes (c : Config) (w w' : Word) : Prop where
  csHigh : csHigh c w = csHigh c w'
  hostOut : hostOut c w = hostOut c w'
  deviceIn : deviceIn c w = deviceIn c w'
  nibble : nibble c w = nibble c w'

theorem andThen_congr {o : Host.Outcome State Fault Refusal} {f g : State → Host.Outcome State Fault Refusal}
    (h : ∀ s, o = .next s → f s = g s) : andThen o f = andThen o g := by
  cases o with
  | next s => exact h s rfl
  | fault r => rfl
  | refused r => rfl

theorem admitSample_congr {s : State} {t : Nat} {k k' : State → Host.Outcome State Fault Refusal} (h : k s = k' s) :
    admitSample t s k = admitSample t s k' := by
  unfold admitSample
  split
  · rfl
  · exact h

theorem implicitEnd_cfg {s s1 : State} (h : implicitEnd s = .next s1) : s1.cfg = s.cfg := by
  obtain h' | ⟨p, -, -, h'⟩ := implicitEnd_next s <;> (cases h'.symm.trans h; rfl)

theorem contStart_cfg {s s1 : State} (h : contStart s = .next s1) : s1.cfg = s.cfg := by
  cases ho : s.opcode with
  | none => cases (contStart_of_no_opcode ho).symm.trans h
  | some c =>
    cases (contStart_of_opcode ho).symm.trans h
    exact push_cfg _ _ _

section
variable {s : State} {w w' : Word} (h : SameLanes s.cfg w w')
include h

/-- The two shifts are the only rows that read the word. -/
theorem assemble_sameLanes : assemble w s = assemble w' s := by
  have hl : shiftLanes w s = shiftLanes w' s := by rw [shiftLanes, shiftLanes, h.hostOut, h.deviceIn]
  have hn : shiftNibble w s = shiftNibble w' s := by rw [shiftNibble, shiftNibble, h.nibble]
  cases hp : quadPhase s with
  | false =>
    have hs := quadPhase_eq_false.1 hp
    rw [assemble_singleLane hs, assemble_singleLane hs, hl]
    rfl
  | true =>
    rw [assemble_quadPhase hp, assemble_quadPhase hp, hn]
    rfl

theorem startsBurst_sameLanes (t : Nat) : startsBurst s w t = startsBurst s w' t := by
  rw [startsBurst, startsBurst, h.csHigh]

theorem execStepIdle_sameLanes (t : Nat) : execStepIdle w t s = execStepIdle w' t s := by
  refine admitSample_congr ?_
  rw [h.csHigh]

theorem execStepActive_sameLanes (t : Nat) : execStepActive w t s = execStepActive w' t s := by
  refine admitSample_congr ?_
  rw [activeSample, activeSample, h.csHigh, assemble_sameLanes (s := stamp t (tighten t s)) h]

theorem execStepStartFresh_sameLanes (t : Nat) : execStepStartFresh w t s = execStepStartFresh w' t s := by
  refine admitSample_congr ?_
  rw [freshSample, freshSample, startsBurst_sameLanes h]
  refine if_congr Iff.rfl (andThen_congr fun s1 h1 => assemble_sameLanes ?_) rfl
  have hcfg : s1.cfg = s.cfg := implicitEnd_cfg (s := tighten t s) h1
  exact hcfg.symm ▸ h

theorem execStepStartCont_sameLanes (t : Nat) : execStepStartCont w t s = execStepStartCont w' t s := by
  refine admitSample_congr ?_
  rw [contSample, contSample, startsBurst_sameLanes h]
  refine if_congr Iff.rfl (andThen_congr fun s1 h1 => andThen_congr fun s2 h2 => assemble_sameLanes ?_) rfl
  have hcfg1 : s1.cfg = s.cfg := implicitEnd_cfg (s := tighten t s) h1
  have hcfg2 : s2.cfg = s1.cfg := contStart_cfg (s := openBurst t s1) h2
  exact (hcfg2.trans hcfg1).symm ▸ h

end

/-! ### The diagnostic counters -/

/-- The state with other values in the two diagnostic counters. -/
def withCounters (n m : Nat) (s : State) : State :=
  { s with txnCount := n, orphanCount := m }

/-- Two outcomes are the same refusal, or next states that differ in the diagnostic counters at most. -/
inductive SameButCounters : Host.Outcome State Fault Refusal → Host.Outcome State Fault Refusal → Prop where
  | next {s s' : State} (n m : Nat) (h : s' = withCounters n m s) : SameButCounters (.next s) (.next s')
  | refused (r : Refusal) : SameButCounters (.refused r) (.refused r)

/-- An operation reads neither counter. -/
def CountersUnread (f : State → Host.Outcome State Fault Refusal) : Prop :=
  ∀ s n m, SameButCounters (f s) (f (withCounters n m s))

theorem SameButCounters.andThen {o o' : Host.Outcome State Fault Refusal}
    {f : State → Host.Outcome State Fault Refusal} (h : SameButCounters o o') (hf : CountersUnread f) :
    SameButCounters (andThen o f) (andThen o' f) := by
  cases h with
  | next n m h => subst h; exact hf _ n m
  | refused r => exact .refused r

theorem SameButCounters.ite {b : Bool} {o1 o1' o2 o2' : Host.Outcome State Fault Refusal}
    (h1 : SameButCounters o1 o1') (h2 : SameButCounters o2 o2') :
    SameButCounters (if b then o1 else o2) (if b then o1' else o2') := by
  cases b
  · exact h2
  · exact h1

theorem CountersUnread.same : CountersUnread .next := fun _ n m => .next n m rfl

theorem push_withCounters (h d : Byte) (s : State) (n m : Nat) :
    ∃ m', push h d (withCounters n m s) = withCounters n m' (push h d s) := by
  cases hb : s.burstOpen with
  | true => exact ⟨m, by simp [push, withCounters, hb, addPair]⟩
  | false => exact ⟨m + 1, by simp [push, withCounters, hb, countOrphan]⟩

theorem push_unread (h d : Byte) (s : State) (n m : Nat) :
    SameButCounters (.next (push h d s)) (.next (push h d (withCounters n m s))) := by
  obtain ⟨m', h'⟩ := push_withCounters h d s n m
  exact .next n m' h'

theorem execSlShift_unread (w : Word) : CountersUnread (execSlShift w) :=
  fun _ n m => .ite (.next n m rfl) (.next n m rfl)

theorem execSlOpcode_unread (w : Word) : CountersUnread (execSlOpcode w) :=
  fun _ n m => .ite (.next n m rfl) (.next n m rfl)

theorem execSlContDetect_unread (w : Word) : CountersUnread (execSlContDetect w) := by
  refine fun s n m => .ite ?_ (.next n m rfl)
  have hd : (withCounters n m s).opcode.bind (contOf (withCounters n m s).cfg) = s.opcode.bind (contOf s.cfg) := rfl
  rw [hd]
  cases s.opcode.bind (contOf s.cfg) <;> exact .next n m rfl

theorem execSlFlush_unread (w : Word) : CountersUnread (execSlFlush w) := by
  intro s n m
  have hop := (push_unread s.accHo s.accDi s n m).andThen (execSlOpcode_unread w)
  exact .ite (hop.andThen fun s1 n m => (execSlContDetect_unread w s1 n m).andThen fun _ n m => .next n m rfl)
    (.next n m rfl)

theorem execQShift_unread (w : Word) : CountersUnread (execQShift w) :=
  fun _ n m => .ite (.next n m rfl) (.next n m rfl)

theorem execQDirection_unread (w : Word) : CountersUnread (execQDirection w) :=
  fun s n m => .ite (.ite (push_unread _ _ s n m) (push_unread _ _ s n m)) (.next n m rfl)

theorem execTrack_unread (w : Word) : CountersUnread (execTrack w) :=
  fun _ n m => .ite (.next n m rfl) (.next n m rfl)

theorem execQMode_unread (w : Word) : CountersUnread (execQMode w) :=
  fun s n m => .ite (execTrack_unread w s n m) (.next n m rfl)

theorem execQFlush_unread (w : Word) : CountersUnread (execQFlush w) :=
  fun s n m => .ite ((execQDirection_unread w s n m).andThen fun s1 n m =>
    (execQMode_unread w s1 n m).andThen fun _ n m => .next n m rfl) (.next n m rfl)

theorem execEdgeInc_unread (w : Word) : CountersUnread (execEdgeInc w) :=
  fun _ n m => .ite (.refused _) (.next n m rfl)

theorem assemble_unread (w : Word) : CountersUnread (assemble w) :=
  fun s n m => (execSlShift_unread w s n m).andThen fun s n m => (execSlFlush_unread w s n m).andThen fun s n m =>
    (execQShift_unread w s n m).andThen fun s n m => (execQFlush_unread w s n m).andThen (execEdgeInc_unread w)

theorem commandRow_unread (op : Byte) : CountersUnread (commandRow op) := by
  intro s n m
  have hts : (withCounters n m s).lastTs = s.lastTs := rfl
  cases hl : s.lastTs with
  | none =>
    simp only [commandRow, hts, hl]
    exact .next n m rfl
  | some p =>
    simp only [commandRow, hts, hl]
    exact .ite (.next n m rfl) (.next n m rfl)

theorem implicitEnd_unread : CountersUnread implicitEnd := by
  refine fun s n m => .ite ?_ (.next n m rfl)
  have hh : (withCounters n m s).h2d = s.h2d := rfl
  rw [hh]
  cases s.h2d with
  | nil => exact .next n m rfl
  | cons op rest =>
    simp only [runCommand_eq_commandRow]
    exact commandRow_unread op s n m

theorem contStart_unread : CountersUnread contStart := by
  intro s n m
  cases ho : s.opcode with
  | none =>
    rw [contStart_of_no_opcode ho, contStart_of_no_opcode (s := withCounters n m s) ho]
    exact .refused _
  | some c =>
    rw [contStart_of_opcode ho, contStart_of_opcode (s := withCounters n m s) ho]
    exact push_unread c 0x00 (preseed s) n m

theorem admitSample_unread {t : Nat} {k : State → Host.Outcome State Fault Refusal} (hk : CountersUnread k) :
    CountersUnread fun s => admitSample t s k := by
  intro s n m
  have hr : sampleRefusal (withCounters n m s) t = sampleRefusal s t := rfl
  cases h : sampleRefusal s t with
  | some r =>
    simp only [admitSample, hr, h]
    exact .refused r
  | none =>
    simp only [admitSample, hr, h]
    exact hk s n m

theorem execStepIdle_unread (w : Word) (t : Nat) : CountersUnread (execStepIdle w t) :=
  admitSample_unread fun _ n m => .ite (.next n m rfl) (.next n m rfl)

theorem execStepActive_unread (w : Word) (t : Nat) : CountersUnread (execStepActive w t) :=
  admitSample_unread fun s n m => .ite (assemble_unread w (stamp t (tighten t s)) n m) (.next n m rfl)

theorem execStepStartFresh_unread (w : Word) (t : Nat) : CountersUnread (execStepStartFresh w t) :=
  admitSample_unread fun s n m => .ite ((implicitEnd_unread (tighten t s) n m).andThen fun s1 n m =>
    assemble_unread w (stamp t (freshStart (openBurst t s1))) (n + 1) m) (.next n m rfl)

theorem execStepStartCont_unread (w : Word) (t : Nat) : CountersUnread (execStepStartCont w t) :=
  admitSample_unread fun s n m => .ite ((implicitEnd_unread (tighten t s) n m).andThen fun s1 n m =>
    (contStart_unread (openBurst t s1) (n + 1) m).andThen fun s2 n m => assemble_unread w (stamp t s2) n m)
    (.next n m rfl)

/-- No instruction reads a diagnostic counter. -/
theorem exec_unread (i : Instr) : CountersUnread (exec i) := by
  cases i with
  | stepIdle w t => exact execStepIdle_unread w t
  | stepActive w t => exact execStepActive_unread w t
  | stepStartFresh w t => exact execStepStartFresh_unread w t
  | stepStartCont w t => exact execStepStartCont_unread w t
  | slShift w => exact execSlShift_unread w
  | slFlush w => exact execSlFlush_unread w
  | slOpcode w => exact execSlOpcode_unread w
  | slContDetect w => exact execSlContDetect_unread w
  | qShift w => exact execQShift_unread w
  | qFlush w => exact execQFlush_unread w
  | qDirection w => exact execQDirection_unread w
  | qMode w => exact execQMode_unread w
  | edgeInc w => exact execEdgeInc_unread w
  | track w => exact execTrack_unread w
  | read => exact commandRow_unread opRead
  | fastRead => exact commandRow_unread opFastRead
  | read4b => exact commandRow_unread opRead4b
  | quadRead6b => exact commandRow_unread opQuadRead6b
  | quadRead => exact commandRow_unread opQuadRead
  | en4b => exact fun s => commandRow_unread s.cfg.cmdtab.en4b s
  | ex4b => exact fun s => commandRow_unread s.cfg.cmdtab.ex4b s
  | unknown op => exact commandRow_unread op

end Sys2Proof.Machine
end

section
/-! The two noninterference statements, and the values after reset, each settled from the laws above. -/

namespace Sys2Proof.Machine

/-- Settles O4: equal bits are equal chip select and lanes, which is all that the four whole steps read. -/
theorem unusedSampleBitsIgnored : Obligations.UnusedSampleBitsIgnored := by
  intro s t w w' hcs hho hdi h2 h3
  have h : SameLanes s.cfg w w' := ⟨hcs, hho, hdi, by rw [nibble, nibble, hho, hdi, h2, h3]⟩
  exact ⟨execStepIdle_sameLanes h t, execStepActive_sameLanes h t, execStepStartFresh_sameLanes h t,
    execStepStartCont_sameLanes h t⟩

/-- Settles O56: the outcome with other counters is the same refusal, or the same next state but for the counters. -/
theorem diagnosticCountersAreNeverRead : Obligations.DiagnosticCountersAreNeverRead := by
  intro i s n m
  have h : SameButCounters (exec i s) (exec i { s with txnCount := n, orphanCount := m }) := exec_unread i s n m
  refine ⟨fun s' hs' => ?_, fun r hr => ?_⟩
  · rw [hs'] at h
    generalize exec i { s with txnCount := n, orphanCount := m } = o at h ⊢
    obtain ⟨n', m', rfl⟩ := h
    exact ⟨n', m', rfl⟩
  · rw [hr] at h
    generalize exec i { s with txnCount := n, orphanCount := m } = o at h ⊢
    cases h
    rfl

/-- Settles O5: the state after reset, field by field. -/
theorem resetLeavesTheTableValues : Obligations.ResetLeavesTheTableValues := by
  intro c
  exact ⟨resetWith_gapThr c, resetWith_lastTs c, resetWith_burstOpen c, resetWith_bStartTs c, resetWith_h2d c,
    resetWith_d2h c, resetWith_edge c, resetWith_qthr c, resetWith_dummy c, resetWith_opcode c, resetWith_accHo c,
    resetWith_accDi c, resetWith_accQ c, resetWith_cont c, resetWith_addrw c, resetWith_txnCount c,
    resetWith_orphanCount c, rfl, rfl⟩

end Sys2Proof.Machine
end
